-- ==== Sys2Proof/Word.lean ====
section
/-! DEFINITION. The word types of the decode engine (00_scope.md R8). -/

namespace Sys2Proof

/-- A 32-bit host register or command word (R8, R31). -/
abbrev Word := BitVec 32

/-- One byte of BUF (R8, R100). -/
abbrev Byte := BitVec 8

/-- The bit pattern of an IEEE 754 binary32 value (R8, R441). -/
abbrev F32 := BitVec 32

end Sys2Proof
end

