-- ==== Sys2Proof/Syntax.lean ====
section
/-! DEFINITION. The 44 commands (30_encoding.md R135), one constructor per row of the opcode map. An immediate is the bit field
the encoding gives it (R131); every other operand comes from the registers. -/

namespace Sys2Proof

inductive Instr where
  /-- 0.0 NOP (R160). -/
  | nop
  /-- 0.1 SRST_UNIT unit (R161). -/
  | srstUnit (u : BitVec 4)
  /-- 1.0 BR_INIT lsb (R172). -/
  | brInit (lsb : BitVec 1)
  /-- 1.1 BR_GETBIT (R173). -/
  | brGetbit
  /-- 1.2 BR_GETBITS n (R174). -/
  | brGetbits (n : BitVec 6)
  /-- 1.3 BR_PEEKBITS n (R175). -/
  | brPeekbits (n : BitVec 6)
  /-- 1.4 BR_ALIGN (R176). -/
  | brAlign
  /-- 2.0 RC_START (R205). -/
  | rcStart
  /-- 2.1 RC_CULSHIFT shift (R207). -/
  | rcCulshift (shift : BitVec 5)
  /-- 2.2 RC_UPDATE (R208). -/
  | rcUpdate
  /-- 2.3 RC_NORMALIZE (R206). -/
  | rcNormalize
  /-- 2.4 RC_DECODE (R230). -/
  | rcDecode
  /-- 3.0 QS_INIT lg_totf (R220). -/
  | qsInit (lg : BitVec 4)
  /-- 3.1 QS_RESET (R221). -/
  | qsReset
  /-- 3.2 QS_GETSYM (R223). -/
  | qsGetsym
  /-- 3.3 QS_GETFREQ (R224). -/
  | qsGetfreq
  /-- 3.4 QS_UPDATE (R225). -/
  | qsUpdate
  /-- 4.0 HUF_INIT order1 (R270). -/
  | hufInit (order1 : BitVec 1)
  /-- 4.1 HUF_GETCODE (R280). -/
  | hufGetcode
  /-- 4.2 HUF_SETCTX (R281). -/
  | hufSetctx
  /-- 5.0 GOL_GAMMA (R305). -/
  | golGamma
  /-- 5.1 GOL_RUNLEN (R306). -/
  | golRunlen
  /-- 5.2 GOL_VALUE (R319). -/
  | golValue
  /-- 5.3 GOL_RESETCTX (R317). -/
  | golResetctx
  /-- 5.4 GOL_DECODE (R320). -/
  | golDecode
  /-- 6.0 LZ_INIT (R345). -/
  | lzInit
  /-- 6.1 LZ_DECOMPRESS variant (R347). -/
  | lzDecompress (variant : BitVec 4)
  /-- 7.0 CAM_SETKEY (R390). -/
  | camSetkey
  /-- 7.1 CAM_DECBLK (R393). -/
  | camDecblk
  /-- 7.2 CAM_DECRANGE (R394). -/
  | camDecrange
  /-- 8.0 NEKO_SETKEY64 (R422). -/
  | nekoSetkey64
  /-- 8.1 NEKO_SETHASH (R423). -/
  | nekoSethash
  /-- 8.2 NEKO_DECRYPT (R424). -/
  | nekoDecrypt
  /-- 9.0 XF_LOADQ degree (R445). -/
  | xfLoadq (degree : BitVec 4)
  /-- 9.1 XF_IQUANT degree (R450). -/
  | xfIquant (degree : BitVec 4)
  /-- 9.2 XF_GIVENS degree (R455). -/
  | xfGivens (degree : BitVec 4)
  /-- 9.3 XF_IPLOT degree (R460). -/
  | xfIplot (degree : BitVec 4)
  /-- 9.4 XF_ILOT degree (R461). -/
  | xfIlot (degree : BitVec 4)
  /-- 9.5 XF_IDCT degree (R465). -/
  | xfIdct (degree : BitVec 4)
  /-- 9.6 XF_STORE16 degree (R470). -/
  | xfStore16 (degree : BitVec 4)
  /-- 9.7 XF_CLRCARRY (R462). -/
  | xfClrcarry
  /-- 9.8 XF_LOADF degree (R446). -/
  | xfLoadf (degree : BitVec 4)
  /-- 9.9 XF_STOREF degree (R447). -/
  | xfStoref (degree : BitVec 4)
  /-- 9.10 XF_RESTORE degree (R475). -/
  | xfRestore (degree : BitVec 4)
  deriving DecidableEq, Repr

end Sys2Proof
end

