-- ==== Sys2Proof/WellFormed.lean ====
section
/-! DEFINITION. The operand legality of 30_encoding.md R136 for the immediates. Every immediate fits its field by its type; an
immediate this check refuses is still encodable, and its command raises BadOperand (or UnsupportedVariant), as its rule says. -/

namespace Sys2Proof

/-- The degree range of every XF command but XF_CLRCARRY (R136, R440). -/
def degreeOk (d : BitVec 4) : Bool := decide (2 ≤ d.toNat) && decide (d.toNat ≤ 12)

/-- R136: the immediate of `i` lies in the range its command accepts. `LZ_DECOMPRESS` 3 and 4 are in R136's range 0..4 and raise
UnsupportedVariant. -/
def Instr.wellFormed (i : Instr) : Bool :=
  match i with
  | .nop => true
  | .srstUnit u => decide (u.toNat ≤ 9) || decide (u.toNat = 15)
  | .brInit _ => true
  | .brGetbit => true
  | .brGetbits n => decide (n.toNat ≤ 32)
  | .brPeekbits n => decide (n.toNat ≤ 32)
  | .brAlign => true
  | .rcStart => true
  | .rcCulshift sh => decide (1 ≤ sh.toNat) && decide (sh.toNat ≤ 16)
  | .rcUpdate => true
  | .rcNormalize => true
  | .rcDecode => true
  | .qsInit lg => decide (9 ≤ lg.toNat)
  | .qsReset => true
  | .qsGetsym => true
  | .qsGetfreq => true
  | .qsUpdate => true
  | .hufInit _ => true
  | .hufGetcode => true
  | .hufSetctx => true
  | .golGamma => true
  | .golRunlen => true
  | .golValue => true
  | .golResetctx => true
  | .golDecode => true
  | .lzInit => true
  | .lzDecompress v => decide (v.toNat ≤ 4)
  | .camSetkey => true
  | .camDecblk => true
  | .camDecrange => true
  | .nekoSetkey64 => true
  | .nekoSethash => true
  | .nekoDecrypt => true
  | .xfLoadq d => degreeOk d
  | .xfIquant d => degreeOk d
  | .xfGivens d => degreeOk d
  | .xfIplot d => degreeOk d
  | .xfIlot d => degreeOk d
  | .xfIdct d => degreeOk d
  | .xfStore16 d => degreeOk d
  | .xfClrcarry => true
  | .xfLoadf d => degreeOk d
  | .xfStoref d => degreeOk d
  | .xfRestore d => degreeOk d

end Sys2Proof
end

