-- ==== Sys2Proof/Decode.lean ====
section
/-! DEFINITION. The command decoder (30_encoding.md R131, R133, R135), total on words and rejecting by name, and the encoder. -/

namespace Sys2Proof

/-- UNIT and OP of a command word (R131). -/
structure CmdId where
  unit : Nat
  op : Nat
  deriving DecidableEq, Repr

/-- One row of the opcode map (R135): the compared bits, their values, and the command whose immediate is read from the low bits
of the word. -/
structure OpRow where
  mnemonic : String
  mask : Word
  mtch : Word
  build : Word → Instr

/-- Rows of units 0 to 3 (R135). -/
def opRowsLow : List OpRow := [
  ⟨"NOP", 0xFFFFFFFF, 0x00000000, fun _ => .nop⟩,
  ⟨"SRST_UNIT", 0xFFFFFFF0, 0x01000000, fun w => .srstUnit (w.setWidth 4)⟩,
  ⟨"BR_INIT", 0xFFFFFFFE, 0x10000000, fun w => .brInit (w.setWidth 1)⟩,
  ⟨"BR_GETBIT", 0xFFFFFFFF, 0x11000000, fun _ => .brGetbit⟩,
  ⟨"BR_GETBITS", 0xFFFFFFC0, 0x12000000, fun w => .brGetbits (w.setWidth 6)⟩,
  ⟨"BR_PEEKBITS", 0xFFFFFFC0, 0x13000000, fun w => .brPeekbits (w.setWidth 6)⟩,
  ⟨"BR_ALIGN", 0xFFFFFFFF, 0x14000000, fun _ => .brAlign⟩,
  ⟨"RC_START", 0xFFFFFFFF, 0x20000000, fun _ => .rcStart⟩,
  ⟨"RC_CULSHIFT", 0xFFFFFFE0, 0x21000000, fun w => .rcCulshift (w.setWidth 5)⟩,
  ⟨"RC_UPDATE", 0xFFFFFFFF, 0x22000000, fun _ => .rcUpdate⟩,
  ⟨"RC_NORMALIZE", 0xFFFFFFFF, 0x23000000, fun _ => .rcNormalize⟩,
  ⟨"RC_DECODE", 0xFFFFFFFF, 0x24000000, fun _ => .rcDecode⟩,
  ⟨"QS_INIT", 0xFFFFFFF0, 0x30000000, fun w => .qsInit (w.setWidth 4)⟩,
  ⟨"QS_RESET", 0xFFFFFFFF, 0x31000000, fun _ => .qsReset⟩,
  ⟨"QS_GETSYM", 0xFFFFFFFF, 0x32000000, fun _ => .qsGetsym⟩,
  ⟨"QS_GETFREQ", 0xFFFFFFFF, 0x33000000, fun _ => .qsGetfreq⟩,
  ⟨"QS_UPDATE", 0xFFFFFFFF, 0x34000000, fun _ => .qsUpdate⟩]

/-- Rows of units 4 to 8 (R135). -/
def opRowsMid : List OpRow := [
  ⟨"HUF_INIT", 0xFFFFFFFE, 0x40000000, fun w => .hufInit (w.setWidth 1)⟩,
  ⟨"HUF_GETCODE", 0xFFFFFFFF, 0x41000000, fun _ => .hufGetcode⟩,
  ⟨"HUF_SETCTX", 0xFFFFFFFF, 0x42000000, fun _ => .hufSetctx⟩,
  ⟨"GOL_GAMMA", 0xFFFFFFFF, 0x50000000, fun _ => .golGamma⟩,
  ⟨"GOL_RUNLEN", 0xFFFFFFFF, 0x51000000, fun _ => .golRunlen⟩,
  ⟨"GOL_VALUE", 0xFFFFFFFF, 0x52000000, fun _ => .golValue⟩,
  ⟨"GOL_RESETCTX", 0xFFFFFFFF, 0x53000000, fun _ => .golResetctx⟩,
  ⟨"GOL_DECODE", 0xFFFFFFFF, 0x54000000, fun _ => .golDecode⟩,
  ⟨"LZ_INIT", 0xFFFFFFFF, 0x60000000, fun _ => .lzInit⟩,
  ⟨"LZ_DECOMPRESS", 0xFFFFFFF0, 0x61000000, fun w => .lzDecompress (w.setWidth 4)⟩,
  ⟨"CAM_SETKEY", 0xFFFFFFFF, 0x70000000, fun _ => .camSetkey⟩,
  ⟨"CAM_DECBLK", 0xFFFFFFFF, 0x71000000, fun _ => .camDecblk⟩,
  ⟨"CAM_DECRANGE", 0xFFFFFFFF, 0x72000000, fun _ => .camDecrange⟩,
  ⟨"NEKO_SETKEY64", 0xFFFFFFFF, 0x80000000, fun _ => .nekoSetkey64⟩,
  ⟨"NEKO_SETHASH", 0xFFFFFFFF, 0x81000000, fun _ => .nekoSethash⟩,
  ⟨"NEKO_DECRYPT", 0xFFFFFFFF, 0x82000000, fun _ => .nekoDecrypt⟩]

/-- Rows of unit 9 (R135). -/
def opRowsXf : List OpRow := [
  ⟨"XF_LOADQ", 0xFFFFFFF0, 0x90000000, fun w => .xfLoadq (w.setWidth 4)⟩,
  ⟨"XF_IQUANT", 0xFFFFFFF0, 0x91000000, fun w => .xfIquant (w.setWidth 4)⟩,
  ⟨"XF_GIVENS", 0xFFFFFFF0, 0x92000000, fun w => .xfGivens (w.setWidth 4)⟩,
  ⟨"XF_IPLOT", 0xFFFFFFF0, 0x93000000, fun w => .xfIplot (w.setWidth 4)⟩,
  ⟨"XF_ILOT", 0xFFFFFFF0, 0x94000000, fun w => .xfIlot (w.setWidth 4)⟩,
  ⟨"XF_IDCT", 0xFFFFFFF0, 0x95000000, fun w => .xfIdct (w.setWidth 4)⟩,
  ⟨"XF_STORE16", 0xFFFFFFF0, 0x96000000, fun w => .xfStore16 (w.setWidth 4)⟩,
  ⟨"XF_CLRCARRY", 0xFFFFFFFF, 0x97000000, fun _ => .xfClrcarry⟩,
  ⟨"XF_LOADF", 0xFFFFFFF0, 0x98000000, fun w => .xfLoadf (w.setWidth 4)⟩,
  ⟨"XF_STOREF", 0xFFFFFFF0, 0x99000000, fun w => .xfStoref (w.setWidth 4)⟩,
  ⟨"XF_RESTORE", 0xFFFFFFF0, 0x9A000000, fun w => .xfRestore (w.setWidth 4)⟩]

/-- The complete opcode map (R135). -/
def opRows : List OpRow := opRowsLow ++ opRowsMid ++ opRowsXf

/-- Why a word is no command (R133, R134); each is the error IllegalCommand. -/
inductive Reject where
  /-- UNIT 10..15 is reserved. -/
  | reservedUnit
  /-- The OP value is not in the unit's rows. -/
  | reservedOp
  /-- A bit of `F` outside the command's immediate is 1. -/
  | reservedField
  deriving DecidableEq, Repr

/-- UNIT = bits 31:28 (R131). -/
def wordUnit (w : Word) : Nat := (w.extractLsb' 28 4).toNat

/-- OP = bits 27:24 (R131). -/
def wordOp (w : Word) : Nat := (w.extractLsb' 24 4).toNat

/-- UNIT and OP of a word (R131). -/
def wordId (w : Word) : CmdId := ⟨wordUnit w, wordOp w⟩

/-- The name of a rejection (R134). -/
def rejectOf (w : Word) : Reject :=
  if 10 ≤ wordUnit w then .reservedUnit
  else if opRows.any (fun r => r.mtch &&& 0xFF000000 == w &&& 0xFF000000) then .reservedField
  else .reservedOp

/-- The first row whose compared bits the word has. -/
def findRow (w : Word) (rows : List OpRow) : Option OpRow :=
  match rows with
  | [] => none
  | r :: rest => if w &&& r.mask = r.mtch then some r else findRow w rest

/-- R133: the command a word stands for, or the reason it is IllegalCommand. -/
def decode (w : Word) : Except Reject Instr :=
  match findRow w opRows with
  | some r => .ok (r.build w)
  | none => .error (rejectOf w)

/-- The host's question: the instruction this decoder reads from the row's `nbits` bits `w`, every bit above them 0. A command is
one 32-bit word and no byte order applies to it (R131). -/
def decodeTableWord (nbits w : Nat) : Option Instr :=
  match decode (BitVec.ofNat 32 (w % 2 ^ nbits)) with
  | .ok i => some i
  | .error _ => none

/-- The command word of an instruction: the row's match with the immediate in the low bits of `F` (R131, R135). -/
def encode (i : Instr) : Word :=
  match i with
  | .nop => 0x00000000
  | .srstUnit u => 0x01000000 ||| u.setWidth 32
  | .brInit lsb => 0x10000000 ||| lsb.setWidth 32
  | .brGetbit => 0x11000000
  | .brGetbits n => 0x12000000 ||| n.setWidth 32
  | .brPeekbits n => 0x13000000 ||| n.setWidth 32
  | .brAlign => 0x14000000
  | .rcStart => 0x20000000
  | .rcCulshift sh => 0x21000000 ||| sh.setWidth 32
  | .rcUpdate => 0x22000000
  | .rcNormalize => 0x23000000
  | .rcDecode => 0x24000000
  | .qsInit lg => 0x30000000 ||| lg.setWidth 32
  | .qsReset => 0x31000000
  | .qsGetsym => 0x32000000
  | .qsGetfreq => 0x33000000
  | .qsUpdate => 0x34000000
  | .hufInit o => 0x40000000 ||| o.setWidth 32
  | .hufGetcode => 0x41000000
  | .hufSetctx => 0x42000000
  | .golGamma => 0x50000000
  | .golRunlen => 0x51000000
  | .golValue => 0x52000000
  | .golResetctx => 0x53000000
  | .golDecode => 0x54000000
  | .lzInit => 0x60000000
  | .lzDecompress v => 0x61000000 ||| v.setWidth 32
  | .camSetkey => 0x70000000
  | .camDecblk => 0x71000000
  | .camDecrange => 0x72000000
  | .nekoSetkey64 => 0x80000000
  | .nekoSethash => 0x81000000
  | .nekoDecrypt => 0x82000000
  | .xfLoadq d => 0x90000000 ||| d.setWidth 32
  | .xfIquant d => 0x91000000 ||| d.setWidth 32
  | .xfGivens d => 0x92000000 ||| d.setWidth 32
  | .xfIplot d => 0x93000000 ||| d.setWidth 32
  | .xfIlot d => 0x94000000 ||| d.setWidth 32
  | .xfIdct d => 0x95000000 ||| d.setWidth 32
  | .xfStore16 d => 0x96000000 ||| d.setWidth 32
  | .xfClrcarry => 0x97000000
  | .xfLoadf d => 0x98000000 ||| d.setWidth 32
  | .xfStoref d => 0x99000000 ||| d.setWidth 32
  | .xfRestore d => 0x9A000000 ||| d.setWidth 32

end Sys2Proof
end

