-- ==== Sys2Proof/Config.lean ====
section
/-! DEFINITION. What an implementation fixes (00_scope.md R6) and the free values (R12). The parameters with a default are plain
data, `Params`, which a state carries unchanged; the OPEN functions and the draws of UNSPECIFIED values are opaque constants
without a body, so nothing can be proved of a value of theirs. -/

namespace Sys2Proof.Config

/-- R12, the draw of an UNSPECIFIED value: entry `entry` of draw event `event`, at width `w`. No law holds of it. (log 2) -/
opaque freeBits (w event entry : Nat) : BitVec w

/-- OPEN parameter NEKO_KEYMIX (R423): a total function from u32 to u64, no default. (log 6) -/
opaque nekoKeymix : BitVec 32 → BitVec 64

/-- OPEN parameter CAM_ROT (R391), as a function from a block offset to 0..127. It is used when `Params.camRot` is `salted`. (log 5) -/
opaque camRotOpen : BitVec 64 → BitVec 7

/-- One plane rotation `(i, j, c, s)` of the list XF_GIVENS (R455). -/
structure Rotation where
  i : Nat
  j : Nat
  c : BitVec 32
  s : BitVec 32
  deriving DecidableEq, Repr

/-- OPEN parameter XF_GIVENS (R455) before the rule's side conditions: the rotations of a degree. (log 7) -/
opaque xfGivensRaw : Nat → List Rotation

/-- OPEN parameter XF_IQ_WEIGHTS (R450) before the rule's side condition: degree, weight code, coefficient, entry. (log 8) -/
opaque xfWeightRaw : Nat → BitVec 32 → BitVec 32 → Nat → BitVec 32

/-- OPEN parameter XF_FP (R441), the evaluation `IdctFP`, before property P-XF: degree, input vector, entry. (log 9) -/
opaque idctRaw : Nat → List (BitVec 32) → Nat → BitVec 32

/-- The NaN a binary32 operation answers, by operation and operands; the spec gives no payload. (log 10) -/
opaque nanRaw : Nat → BitVec 32 → BitVec 32 → BitVec 32

/-- The two settings of CAM_ROT (R391): the default, no perturbation, and the OPEN function. (log 5) -/
inductive CamRot where
  /-- The default: `CAM_ROT(bo) = 0` for all `bo`. -/
  | unperturbed
  /-- The OPEN function `camRotOpen`. -/
  | salted
  deriving DecidableEq, Repr

/-- The implementation parameters of R6 that have a default, each of a type that admits the legal values only
(93_implementation_defined.md section 2). The default of each field is the spec's. (log 5) -/
structure Params where
  /-- BUF_SIZE = 2^(12 + bufSel), 2^12..2^28, default 2^24. -/
  bufSel : Fin 17 := 12
  /-- RC_BOTTOM = 2^(16 + rcSel), 2^16..2^24, default 2^24. -/
  rcSel : Fin 9 := 8
  /-- RC_NORM_LE, default false; with true RC_BOTTOM is at most 2^23. -/
  rcNormLe : Bool := false
  /-- RC_EXTRA_BITS = rcExtra + 1, 1..7, default 7. -/
  rcExtra : Fin 7 := 6
  /-- CAM_ROT, default unperturbed. -/
  camRot : CamRot := .unperturbed
  deriving DecidableEq, Repr

/-- BUF_SIZE (R6, R101). -/
def Params.bufSize (p : Params) : Nat := 2 ^ (12 + p.bufSel.val)

/-- RC_BOTTOM (R6, R202): at most 2^23 when RC_NORM_LE is true (92_eei_decisions.md D20). -/
def Params.rcBottom (p : Params) : Nat :=
  if p.rcNormLe then 2 ^ (16 + min p.rcSel.val 7) else 2 ^ (16 + p.rcSel.val)

/-- RC_EXTRA_BITS (R6, R203), the X of R203 and R204. -/
def Params.rcExtraBits (p : Params) : Nat := p.rcExtra.val + 1

end Sys2Proof.Config
end

