-- ==== Sys2Proof/Machine/Units.lean ====
section
/-! DEFINITION. The storage shape of arrays and of BUF, the state of each unit (10_state.md section 4), and the values a reset
gives each unit (10_state.md R55, 40_sys_bitreader.md R162). -/

namespace Sys2Proof.Machine

/-- What an entry that a `Store` does not list reads as. -/
inductive Rest (w : Nat) where
  /-- The same known value at every entry. -/
  | known (v : BitVec w)
  /-- UNSPECIFIED (00_scope.md R12): entry `i` reads as the free value `Config.freeBits w event (offset + i)`. -/
  | free (event offset : Nat)
  deriving DecidableEq, Repr

/-- An array or a memory as plain data: the listed entries, indexes strictly rising, and what every other entry reads as. BUF is a
`Store 8`, its cells a list of `Host.Cell`. -/
structure Store (w : Nat) where
  rest : Rest w
  cells : List (Nat × BitVec w)
  deriving DecidableEq, Repr

/-- An array every entry of which is `v`. -/
def blankStore {w : Nat} (v : BitVec w) : Store w := ⟨.known v, []⟩

/-- An array every entry of which is UNSPECIFIED, drawn at `event` (R12). -/
def freeStore {w : Nat} (event offset : Nat) : Store w := ⟨.free event offset, []⟩

/-- A span of BUF with its cursor (20_memory.md R104): `pos` counts bits for the source and bytes for the destination (R31). -/
structure Span where
  base : Word
  len : Word
  pos : Word
  deriving DecidableEq, Repr

/-- RC_STATE (R33, R41); the encoding 3 never occurs. -/
inductive RcState where
  | idle
  | decoding
  | done
  deriving DecidableEq, Repr

/-- Range decoder state (R41, R200). -/
structure Rc where
  low : BitVec 32
  range : BitVec 32
  help : BitVec 32
  buffer : BitVec 8
  st : RcState
  deriving DecidableEq, Repr

/-- Adaptive model state (R42, R215): CF[0..257], NEWF[0..256], SEARCH[0..128] and the scalars. -/
structure Qs where
  valid : Bool
  cf : Store 16
  newf : Store 16
  search : Store 16
  lgTotf : BitVec 4
  shift : BitVec 4
  target : BitVec 16
  rescale : BitVec 32
  incr : BitVec 16
  left : BitVec 16
  nextleft : BitVec 16
  deriving DecidableEq, Repr

/-- One Huffman tree (R43, R260): NODE[0..0x200] as its fields W, P, C; SYM[0..255]; ESC; TP. -/
structure Tree where
  w : Store 16
  p : Store 16
  c : Store 32
  sym : Store 16
  esc : BitVec 16
  tp : BitVec 16
  deriving DecidableEq, Repr

/-- Huffman state (R43): 256 trees, the order and the context. -/
structure Huf where
  valid : Bool
  order1 : Bool
  last : BitVec 8
  trees : Vector Tree 256
  deriving DecidableEq, Repr

/-- Golomb state (R44, R315). -/
structure Gol where
  a : BitVec 32
  n : BitVec 2
  deriving DecidableEq, Repr

/-- LZSS state (R45, R340): WIN[0..4095], LZ_R, LZ_W, LZ_FILL. -/
structure Lz where
  valid : Bool
  win : Store 8
  r : BitVec 12
  w : BitVec 13
  fill : BitVec 8
  deriving DecidableEq, Repr

/-- Camellia state (R46): the key and the derived key; the subkeys are computed from them (90_conflicts.md C9). -/
structure Cam where
  keyed : Bool
  kl : BitVec 128
  ka : BitVec 128
  deriving DecidableEq, Repr

/-- NekoPack state (R47). -/
structure Neko where
  keyed : Bool
  key : BitVec 64
  deriving DecidableEq, Repr

/-- Transform state (R48): XQ residuals, XW weights, XA working block, XT temporary, XC carry, 4096 entries each. -/
structure Xf where
  xq : Store 32
  xw : Store 32
  xa : Store 32
  xt : Store 32
  xc : Store 32
  deriving DecidableEq, Repr

/-! Reset values. `k` is the first of the draw events a reset uses; the events of one width are told apart by event or entry. -/

/-- How many draw events one reset or one abort reserves. -/
def drawsPerEvent : Nat := 16

/-- Unit 2 after a reset (R55, R162). -/
def Rc.atReset : Rc := ⟨0, 0, 0, 0, .idle⟩

/-- Unit 3 after a reset: the scalars 0, the arrays UNSPECIFIED (R55, R162; 90_conflicts.md C8). -/
def Qs.atReset (k : Nat) : Qs where
  valid := false
  cf := freeStore k 0
  newf := freeStore (k + 1) 0
  search := freeStore (k + 2) 0
  lgTotf := 0
  shift := 0
  target := 0
  rescale := 0
  incr := 0
  left := 0
  nextleft := 0

/-- A tree with UNSPECIFIED contents: tree `t` of the draw events from `k` on. -/
def Tree.unspecified (k t : Nat) : Tree where
  w := freeStore (k + 3) (t * 513)
  p := freeStore (k + 4) (t * 513)
  c := freeStore k (t * 513)
  sym := freeStore (k + 5) (t * 256)
  esc := Config.freeBits 16 (k + 6) t
  tp := Config.freeBits 16 (k + 7) t

/-- All 256 trees UNSPECIFIED. -/
def unspecifiedTrees (k : Nat) : Vector Tree 256 :=
  ⟨⟨(List.range 256).map (Tree.unspecified k)⟩, by simp⟩

/-- Unit 4 after a reset (R55, R162). -/
def Huf.atReset (k : Nat) : Huf := ⟨false, false, 0, unspecifiedTrees k⟩

/-- Unit 5 after a reset (R55, R162, R315). -/
def Gol.atReset : Gol := ⟨0, 3⟩

/-- Unit 6 after a reset (R55, R162). -/
def Lz.atReset (k : Nat) : Lz := ⟨false, freeStore k 0, 0, 0, 0⟩

/-- Unit 7 after a reset (R55, R162). -/
def Cam.atReset (k : Nat) : Cam := ⟨false, Config.freeBits 128 k 0, Config.freeBits 128 k 1⟩

/-- Unit 8 after a reset (R55, R162). -/
def Neko.atReset : Neko := ⟨false, 0⟩

/-- Unit 9 after a hardware or soft reset (R55): the carry +0.0, the other arrays UNSPECIFIED. -/
def Xf.atReset (k : Nat) : Xf where
  xq := freeStore (k + 1) 0
  xw := freeStore (k + 2) 0
  xa := freeStore (k + 3) 0
  xt := freeStore (k + 4) 0
  xc := blankStore 0

/-- BUF after a hardware reset: every byte UNSPECIFIED (R55, R541). -/
def bufAtReset (k : Nat) : Store 8 := freeStore (k + 1) 0

/-! The host's side (70_reset_and_hazards.md R540). -/

/-- The two agents of DE (R30). -/
inductive Agent where
  | host
  | engine
  deriving DecidableEq, Repr

/-- The width of a host access (20_memory.md R102, R103). -/
inductive Width where
  | byte
  | half
  | word
  deriving DecidableEq, Repr

/-- One host step (R540), or the platform's hardware reset (R541). -/
inductive HostOp where
  /-- A store of `v` at a register-window offset (R31, R103). -/
  | st (off : BitVec 8) (width : Width) (v : Word)
  /-- A load from a register-window offset. -/
  | ld (off : BitVec 8) (width : Width)
  /-- A store of the low bytes of `v` to BUF (R102). -/
  | bufPut (addr : Word) (width : Width) (v : Word)
  /-- A load from BUF (R102). -/
  | bufGet (addr : Word) (width : Width)
  /-- The platform's reset input (R541). -/
  | hwReset
  deriving DecidableEq, Repr

end Sys2Proof.Machine
end

