-- ==== Sys2Proof/Machine/State.lean ====
section
/-! DEFINITION. The machine's state (10_state.md), why a step can stop, and the state after a hardware reset. -/

namespace Sys2Proof.Machine

/-- Everything the spec gives the machine, and the model's own fields (INVENTORY.md, heading State). Views such as STATUS,
UNITSTAT and IRQ are computed from these (Flags.lean). -/
structure State where
  /-- The parameters the machine was built with (00_scope.md R6); no step changes them. The model's own field. (log 5) -/
  cfg : Config.Params
  /-- STATUS.BUSY (R31). -/
  busy : Bool
  /-- STATUS.DONE (R31). -/
  done : Bool
  /-- STATUS.ERR (R31). -/
  err : Bool
  /-- STATUS.OVR (R31). -/
  ovr : Bool
  /-- ERRCODE (R31, R501). -/
  errcode : Word
  /-- ERRINFO (R31, R501). -/
  errinfo : Word
  /-- IRQEN (R31): bits 0 and 31:4 are reserved and 0. -/
  irqen : Word
  /-- CMD (R31, R130). -/
  cmd : Word
  /-- RESULT (R31, R35). -/
  result : Word
  /-- RESULT1 (R31, R35). -/
  result1 : Word
  /-- ARG0..ARG7 (R31, R34). -/
  args : Vector Word 8
  /-- SRC_BASE, SRC_LEN, SRC_BITPOS (R31, R34). -/
  src : Span
  /-- DST_BASE, DST_LEN, DST_POS (R31, R34). -/
  dst : Span
  /-- BR_LSB (R40). -/
  lsb : Bool
  /-- Unit RC (R41). -/
  rc : Rc
  /-- Unit QS (R42). -/
  qs : Qs
  /-- Unit HUF (R43). -/
  huf : Huf
  /-- Unit GOL (R44). -/
  gol : Gol
  /-- Unit LZ (R45). -/
  lz : Lz
  /-- Unit CAM (R46). -/
  cam : Cam
  /-- Unit NEKO (R47). -/
  neko : Neko
  /-- Unit XF (R48). -/
  xf : Xf
  /-- BUF (R100, R101). -/
  buf : Store 8
  /-- The pending or running command is raced (R118, R550) or its spans overlap (R119). The model's own field. (log 15) -/
  tainted : Bool
  /-- The number of the next draw event of free values (R12). The model's own field. (log 2) -/
  draws : Nat
  /-- The host's pending operations, the next one first (R37, R540). The model's own field. (log 1) -/
  host : List HostOp
  /-- Which agent moves next (R540). The model's own field. (log 1) -/
  turns : List Agent
  /-- The values the host has read, the newest first. The model's own field. (log 1) -/
  seen : List Word
  deriving DecidableEq, Repr

/-- Why the machine would stop with a fault. The spec names none: every command completes or aborts (60_exceptions.md R500) and
every host access has an effect (R32, R102, R103). Nobody raises one; safe. -/
inductive Fault where
  deriving DecidableEq, Repr

/-- Why the model gives an instruction no meaning. -/
inductive Refusal where
  /-- Raised by an arm of `exec` whose instruction has no meaning yet; safe. No arm raises it now. -/
  | notModelled (mnemonic : String)
  deriving DecidableEq, Repr

/-- The state right after a hardware reset (R55, R541): every register at the value R31 gives; what R55 calls UNSPECIFIED is a
free value (logs 3, 4); the host has nothing pending. -/
def State.reset : State where
  cfg := ({} : Config.Params)
  busy := false
  done := false
  err := false
  ovr := false
  errcode := 0
  errinfo := 0
  irqen := 0
  cmd := 0
  result := 0
  result1 := 0
  args := Vector.replicate 8 0
  src := ⟨0, 0, 0⟩
  dst := ⟨0, 0, 0⟩
  lsb := false
  rc := Rc.atReset
  qs := Qs.atReset 0
  huf := Huf.atReset 0
  gol := Gol.atReset
  lz := Lz.atReset 0
  cam := Cam.atReset 0
  neko := Neko.atReset
  xf := Xf.atReset 0
  buf := bufAtReset 0
  tainted := false
  draws := drawsPerEvent
  host := []
  turns := []
  seen := []

end Sys2Proof.Machine
end

