-- ==== Sys2Proof/Machine/Ops.lean ====
section
/-! DEFINITION. The named operations every command is built from: reading and writing arrays and BUF, results, the two ends of a
command (completion R512, abort R510), what an execution error leaves UNSPECIFIED (R511), and the resets (R541, R542, R162). -/

namespace Sys2Proof.Machine

/-! ## Arrays and BUF -/

/-- The listed value at `a`, if any. -/
def cellAt {w : Nat} (cells : List (Nat × BitVec w)) (a : Nat) : Option (BitVec w) :=
  match cells with
  | [] => none
  | (k, v) :: rest => if a = k then some v else cellAt rest a

/-- `cells` with the entry `a` listed as `v`, at its place in the rising order. -/
def cellPut {w : Nat} (cells : List (Nat × BitVec w)) (a : Nat) (v : BitVec w) : List (Nat × BitVec w) :=
  match cells with
  | [] => [(a, v)]
  | (k, u) :: rest =>
    if a < k then (a, v) :: (k, u) :: rest
    else if a = k then (a, v) :: rest
    else (k, u) :: cellPut rest a v

/-- `cells` with no entry listed at `a`. -/
def cellDrop {w : Nat} (cells : List (Nat × BitVec w)) (a : Nat) : List (Nat × BitVec w) :=
  match cells with
  | [] => []
  | (k, u) :: rest => if a = k then cellDrop rest a else (k, u) :: cellDrop rest a

/-- The ONE definition of what an unlisted entry reads as: the known value, or a free value of the entry (R12, R55; logs 3, 4). -/
def restValue {w : Nat} (r : Rest w) (a : Nat) : BitVec w :=
  match r with
  | .known v => v
  | .free event offset => Config.freeBits w event (offset + a)

/-- Whether `v` is what the unlisted entries are known to read as, so that it is not listed. -/
def isRestValue {w : Nat} (r : Rest w) (v : BitVec w) : Bool :=
  match r with
  | .known d => v == d
  | .free _ _ => false

/-- The entry `a` of an array, or the byte at address `a` of BUF. -/
def Store.get {w : Nat} (s : Store w) (a : Nat) : BitVec w :=
  (cellAt s.cells a).getD (restValue s.rest a)

/-- The array with entry `a` set to `v`, in canonical form. -/
def Store.set {w : Nat} (s : Store w) (a : Nat) (v : BitVec w) : Store w :=
  if isRestValue s.rest v then { s with cells := cellDrop s.cells a }
  else { s with cells := cellPut s.cells a v }

/-- The entries `base .. base + n - 1` as listed cells, `f` of the entry each, without those the rest already reads as. -/
def spanCells {w : Nat} (r : Rest w) (base n : Nat) (f : Nat → BitVec w) : List (Nat × BitVec w) :=
  match n with
  | 0 => []
  | n + 1 =>
    if isRestValue r (f base) then spanCells r (base + 1) n f
    else (base, f base) :: spanCells r (base + 1) n f

/-- The array with every entry `a` of `base .. base + n - 1` set to `f a`, all at once, in canonical form. -/
def Store.setSpan {w : Nat} (s : Store w) (base n : Nat) (f : Nat → BitVec w) : Store w :=
  { s with cells := s.cells.filter (fun c => c.1 < base) ++ spanCells s.rest base n f
      ++ s.cells.filter (fun c => base + n ≤ c.1) }

/-- The array with the listed entries set one after another, `f` of the entry each. -/
def Store.setEach {w : Nat} (s : Store w) (entries : List Nat) (f : Nat → BitVec w) : Store w :=
  match entries with
  | [] => s
  | a :: rest => (s.set a (f a)).setEach rest f

/-- Indexes strictly rise. -/
def risingFrom {w : Nat} (low : Nat) (cells : List (Nat × BitVec w)) : Bool :=
  match cells with
  | [] => true
  | (k, _) :: rest => decide (low ≤ k) && risingFrom (k + 1) rest

/-- The canonical form: indexes strictly rising, and no entry that the rest already reads as. -/
def Store.wf {w : Nat} (s : Store w) : Bool :=
  risingFrom 0 s.cells && s.cells.all (fun c => !isRestValue s.rest c.2)

/-! ## Bytes and byte order (00_scope.md R10, 20_memory.md R105) -/

/-- `LE(bytes)`: the little-endian unsigned value of a byte list. -/
def leNat (bytes : List Byte) : Nat :=
  match bytes with
  | [] => 0
  | b :: rest => b.toNat + 256 * leNat rest

/-- `BE(bytes)`: the big-endian unsigned value of a byte list. -/
def beNat (bytes : List Byte) : Nat := leNat bytes.reverse

/-- `toLE`: byte `i` of a value, counted from its least significant byte. -/
def leByte (v i : Nat) : Byte := BitVec.ofNat 8 (v / 256 ^ i)

/-- `MemRead(addr, n)` (R10). -/
def memRead (buf : Store 8) (addr n : Nat) : List Byte := (List.range n).map (fun i => buf.get (addr + i))

/-- The byte a command writes at address `a`: `b`, or for a raced or overlapping command the UNSPECIFIED byte (R118, R119). -/
def writtenByte (taint : Option Nat) (a : Nat) (b : Byte) : Byte :=
  match taint with
  | none => b
  | some k => Config.freeBits 8 k a

/-- A command's write of one byte. -/
def putByte (taint : Option Nat) (buf : Store 8) (a : Nat) (b : Byte) : Store 8 :=
  buf.set a (writtenByte taint a b)

/-- `MemWrite(addr, n, v)` with `v` the value whose byte `i`, little-endian, goes to `addr + i` (R10, R105). -/
def memWriteLE (taint : Option Nat) (buf : Store 8) (addr n v : Nat) : Store 8 :=
  buf.setSpan addr n (fun a => writtenByte taint a (leByte v (a - addr)))

/-- `MemWrite(addr, n, toBE(v))`: the most significant of the `n` bytes goes to `addr` (R10, R392). -/
def memWriteBE (taint : Option Nat) (buf : Store 8) (addr n v : Nat) : Store 8 :=
  buf.setSpan addr n (fun a => writtenByte taint a (leByte v (n - 1 - (a - addr))))

/-! ## Errors (60_exceptions.md R501) -/

/-- The error kinds of R501. -/
inductive Err where
  | formatError
  | truncatedInput
  | unsupportedVariant
  | illegalCommand
  | badOperand
  | outOfBounds
  | destinationFull
  /-- Never written to ERRCODE: the name of the event that sets STATUS.OVR (R514). -/
  | commandOverrun
  /-- Never raised by DE (R509). -/
  | decryptionMismatch
  | sequenceError
  deriving DecidableEq, Repr

/-- The code of an error (R501). -/
def Err.code (e : Err) : Nat :=
  match e with
  | .formatError => 1
  | .truncatedInput => 2
  | .unsupportedVariant => 3
  | .illegalCommand => 4
  | .badOperand => 5
  | .outOfBounds => 6
  | .destinationFull => 7
  | .commandOverrun => 8
  | .decryptionMismatch => 9
  | .sequenceError => 10

/-- `raise E(info)` (R10). -/
structure Raise where
  err : Err
  info : Word
  deriving DecidableEq, Repr

/-- A command's computation: a value, or the error it raised, after which nothing more of it runs (R10, R510). -/
abbrev Run (α : Type) := Except Raise α

/-- `raise E(info)`. -/
def raise {α : Type} (e : Err) (info : Word) : Run α := .error ⟨e, info⟩

/-- `if not c: raise E(info)`. -/
def require (c : Bool) (e : Err) (info : Word) : Run Unit := if c then .ok () else raise e info

/-! ## Results and the two ends of a command -/

/-- `ARGi` (R34). -/
def State.arg (s : State) (i : Fin 8) : Word := s.args[i]

/-- The draw event of the running command's UNSPECIFIED bytes and results when it is tainted (R118, R119, R550). -/
def State.taint (s : State) : Option Nat := if s.tainted then some s.draws else none

/-- `RESULT <- v` (R35); a tainted command's result is UNSPECIFIED. -/
def State.setResult (s : State) (v : Word) : State :=
  { s with result := if s.tainted then Config.freeBits 32 s.draws 0 else v }

/-- `RESULT1 <- v` (R35); a tainted command's result is UNSPECIFIED. -/
def State.setResult1 (s : State) (v : Word) : State :=
  { s with result1 := if s.tainted then Config.freeBits 32 s.draws 1 else v }

/-- Completion (R512): BUSY <- 0, DONE <- 1; ERR, ERRCODE and ERRINFO unchanged. -/
def State.complete (s : State) : State :=
  { s with
    busy := false
    done := true
    tainted := false
    draws := if s.tainted then s.draws + drawsPerEvent else s.draws }

/-- The ERRCODE word of an abort: `code(E) | (UNIT << 8) | (OP << 12)` (R510). -/
def errWord (id : CmdId) (e : Err) : Word :=
  BitVec.ofNat 32 (e.code ||| (id.unit <<< 8) ||| (id.op <<< 12))

/-- TAKING AN ERROR, the abort of R510: BUSY <- 0, ERR <- 1, ERRCODE and ERRINFO written, RESULT and RESULT1 zeroed. DONE is not
set and CMD keeps the failing word. DE has no trap entry beyond it (R517). -/
def State.abort (s : State) (id : CmdId) (r : Raise) : State :=
  { s with
    busy := false
    err := true
    errcode := errWord id r.err
    errinfo := r.info
    result := 0
    result1 := 0
    tainted := false
    draws := if s.tainted then s.draws + drawsPerEvent else s.draws }

/-- The acknowledgement that ends an error, the host's write of 1 to STATUS.ERR: ERR, ERRCODE and ERRINFO become 0 (R32, R517).
DE has no return instruction. -/
def State.ackErr (s : State) : State := { s with err := false, errcode := 0, errinfo := 0 }

/-- The shape of every command (R500, R513, R515): the checks that come before its first change of state, in the order its rule
lists them; then its body; a pre-check error changes nothing but R510's registers (R511.1), an execution error leaves `after`,
what R511.2 says of this command. -/
def runCommand (s : State) (id : CmdId) (checks : Run Unit) (body : Run State) (after : State) :
    Host.Outcome State Fault Refusal :=
  match checks with
  | .error r => .next (s.abort id r)
  | .ok _ =>
    match body with
    | .ok t => .next t.complete
    | .error r => .next (after.abort id r)

/-! ## What an execution error leaves UNSPECIFIED (R511.2)

Each operation replaces one part of the state before the command by free values; `s.draws + 1` on are their draw events, beside
those a tainted command used. `State.endDraws` then moves the counter on. -/

/-- A free value between `lo` and `hi` inclusive (`lo <= hi`). -/
def freeBetween (event entry lo hi : Nat) : Nat :=
  lo + (Config.freeBits 32 event entry).toNat % (hi - lo + 1)

/-- `SRC_BITPOS` UNSPECIFIED within `[p0, 8 * SRC_LEN]` (R511.2). -/
def State.loseSrcPos (s : State) : State :=
  { s with src := { s.src with
      pos := BitVec.ofNat 32 (freeBetween (s.draws + 9) 0 s.src.pos.toNat (8 * s.src.len.toNat)) } }

/-- Destination bytes from the cursor to the end of the span, and the cursor within `[start, DST_LEN]`, UNSPECIFIED (R511.2). -/
def State.loseDst (s : State) : State :=
  { s with
    buf := s.buf.setSpan (s.dst.base.toNat + s.dst.pos.toNat) (s.dst.len.toNat - s.dst.pos.toNat)
      (fun a => Config.freeBits 8 (s.draws + 2) a)
    dst := { s.dst with
      pos := BitVec.ofNat 32 (freeBetween (s.draws + 9) 1 s.dst.pos.toNat s.dst.len.toNat) } }

/-- The listed BUF bytes UNSPECIFIED: the strided output bytes of GOL_DECODE (R511.2). -/
def State.loseBytes (s : State) (entries : List Nat) : State :=
  { s with buf := s.buf.setEach entries (fun a => Config.freeBits 8 (s.draws + 2) a) }

/-- RC after an execution error (R511.2, R201). -/
def State.loseRc (s : State) : State :=
  { s with rc :=
      ⟨Config.freeBits 32 (s.draws + 9) 2, Config.freeBits 32 (s.draws + 9) 3, Config.freeBits 32 (s.draws + 9) 4,
        Config.freeBits 8 (s.draws + 9) 0, .idle⟩ }

/-- QS after an execution error of RC_DECODE (R511.2): QS_VALID <- 0, the arrays and scalars UNSPECIFIED. -/
def State.loseQs (s : State) : State :=
  { s with qs := {
      valid := false
      cf := freeStore (s.draws + 1) 0
      newf := freeStore (s.draws + 2) 0
      search := freeStore (s.draws + 3) 0
      lgTotf := Config.freeBits 4 (s.draws + 9) 0
      shift := Config.freeBits 4 (s.draws + 9) 1
      target := Config.freeBits 16 (s.draws + 9) 0
      rescale := Config.freeBits 32 (s.draws + 9) 6
      incr := Config.freeBits 16 (s.draws + 9) 1
      left := Config.freeBits 16 (s.draws + 9) 2
      nextleft := Config.freeBits 16 (s.draws + 9) 3 } }

/-- HUF after an execution error (R511.2, R280): HUF_VALID <- 0, HUF_LAST and the trees UNSPECIFIED, HUF_ORDER1 kept. -/
def State.loseHuf (s : State) : State :=
  { s with huf := { s.huf with
      valid := false
      last := Config.freeBits 8 (s.draws + 9) 1
      trees := unspecifiedTrees (s.draws + 1) } }

/-- GOL after an execution error (R511.2): GOL_A UNSPECIFIED, GOL_N UNSPECIFIED in 0..3. -/
def State.loseGol (s : State) : State :=
  { s with gol := ⟨Config.freeBits 32 (s.draws + 9) 5, Config.freeBits 2 (s.draws + 9) 0⟩ }

/-- LZ after an execution error (R511.2): LZ_VALID <- 0, LZ_R and WIN UNSPECIFIED. -/
def State.loseLz (s : State) : State :=
  { s with lz := { s.lz with
      valid := false
      win := freeStore (s.draws + 1) 0
      r := Config.freeBits 12 (s.draws + 9) 0 } }

/-- The first `n` entries of an array UNSPECIFIED. -/
def Store.lose {w : Nat} (a : Store w) (event n : Nat) : Store w :=
  a.setSpan 0 n (fun i => Config.freeBits w event i)

/-- Entries `0..n-1` of every XF array UNSPECIFIED (R511.2, R475). -/
def State.loseXf (s : State) (n : Nat) : State :=
  { s with xf := {
      xq := s.xf.xq.lose (s.draws + 1) n
      xw := s.xf.xw.lose (s.draws + 2) n
      xa := s.xf.xa.lose (s.draws + 3) n
      xt := s.xf.xt.lose (s.draws + 4) n
      xc := s.xf.xc.lose (s.draws + 5) n } }

/-- The draw counter moved past the events of one command. -/
def State.endDraws (s : State) : State := { s with draws := s.draws + drawsPerEvent }

/-! ## Resets -/

/-- `UnitReset(v)` (40_sys_bitreader.md R162): the state of unit `v` alone; unit 0 and every other number have none (R161). -/
def State.unitReset (s : State) (v : Nat) : State :=
  match v with
  | 1 => { s with lsb := false }
  | 2 => { s with rc := Rc.atReset }
  | 3 => { s with qs := Qs.atReset s.draws }
  | 4 => { s with huf := Huf.atReset s.draws }
  | 5 => { s with gol := Gol.atReset }
  | 6 => { s with lz := Lz.atReset s.draws }
  | 7 => { s with cam := Cam.atReset s.draws }
  | 8 => { s with neko := Neko.atReset }
  | 9 => { s with xf := { s.xf with xc := blankStore 0 } }
  | _ => s

/-- `for v in 1..9: UnitReset(v)` (R161). -/
def State.allUnitsReset (s : State) : State :=
  [1, 2, 3, 4, 5, 6, 7, 8, 9].foldl State.unitReset s

/-- Hardware reset (R541): the values of R55, every UNSPECIFIED value drawn anew; a pending command is discarded. The parameters
and the host's own side are not DE state and stay. -/
def State.hwReset (s : State) : State :=
  { State.reset with
    cfg := s.cfg
    qs := Qs.atReset s.draws
    huf := Huf.atReset s.draws
    lz := Lz.atReset s.draws
    cam := Cam.atReset s.draws
    xf := Xf.atReset s.draws
    buf := bufAtReset s.draws
    draws := s.draws + drawsPerEvent
    host := s.host
    turns := s.turns
    seen := s.seen }

/-- Soft reset (R542): the hardware reset, but BUF is preserved byte for byte. -/
def State.softReset (s : State) : State := { s.hwReset with buf := s.buf }

end Sys2Proof.Machine
end

