-- ==== Sys2Proof/Machine/Flags.lean ====
section
/-! DEFINITION. Every flag and packed view of the register window: STATUS, UNITSTAT, the unit read-back registers and IRQ
(10_state.md R31, R33, R38; 60_exceptions.md R520). -/

namespace Sys2Proof.Machine

/-- One flag as a number at bit `i` of a word. -/
def flagAt (b : Bool) (i : Nat) : Word := if b then BitVec.ofNat 32 (2 ^ i) else 0

/-- The encoding of RC_STATE (R33, R200). -/
def RcState.code (st : RcState) : Nat :=
  match st with
  | .idle => 0
  | .decoding => 1
  | .done => 2

/-- STATUS (R31): BUSY, DONE, ERR, OVR at bits 0..3, the rest 0. -/
def State.statusWord (s : State) : Word :=
  flagAt s.busy 0 ||| flagAt s.done 1 ||| flagAt s.err 2 ||| flagAt s.ovr 3

/-- UNITSTAT (R33). -/
def State.unitstat (s : State) : Word :=
  flagAt s.qs.valid 0 ||| flagAt s.huf.valid 1 ||| flagAt s.huf.order1 2 ||| flagAt s.lz.valid 3 ||| flagAt s.cam.keyed 4
    ||| flagAt s.neko.keyed 5 ||| flagAt s.lsb 6 ||| BitVec.ofNat 32 (s.rc.st.code <<< 8)

/-- QS_CFG (R31): LG_TOTF at 3:0, TARGET at 31:16. -/
def State.qsCfgWord (s : State) : Word := s.qs.lgTotf.setWidth 32 ||| (s.qs.target.setWidth 32 <<< 16)

/-- QS_CNT (R31): LEFT at 15:0, NEXTLEFT at 31:16. -/
def State.qsCntWord (s : State) : Word := s.qs.left.setWidth 32 ||| (s.qs.nextleft.setWidth 32 <<< 16)

/-- QS_RATE (R31): INCR at 15:0, the low 16 bits of RESCALE at 31:16. -/
def State.qsRateWord (s : State) : Word := s.qs.incr.setWidth 32 ||| (s.qs.rescale <<< 16)

/-- LZ_CFG (R31): W at 12:0, the fill byte at 23:16. -/
def State.lzCfgWord (s : State) : Word := s.lz.w.setWidth 32 ||| (s.lz.fill.setWidth 32 <<< 16)

/-- IRQ (R520): a combinational function of STATUS and IRQEN. -/
def State.irq (s : State) : Bool :=
  (s.irqen.getLsbD 1 && s.done) || (s.irqen.getLsbD 2 && s.err) || (s.irqen.getLsbD 3 && s.ovr)

/-- The bits of IRQEN that exist, 3:1 (R31, R32). -/
def irqenMask : Word := 0xE

/-- `if not c: raise SequenceError(UNITSTAT)` (R503). -/
def State.requireReady (s : State) (c : Bool) : Run Unit := require c .sequenceError s.unitstat

end Sys2Proof.Machine
end

