-- ==== Sys2Proof/Machine/Operands.lean ====
section
/-! DEFINITION. The operand forms: immediates, the source span through its bit and byte cursor, the destination span, and direct
BUF addresses (20_memory.md R104, R106 to R109). -/

namespace Sys2Proof.Machine

/-- An immediate zero-extended to 32 bits, as the information word of its refusal (30_encoding.md R131). -/
def immWord {n : Nat} (v : BitVec n) : Word := v.setWidth 32

/-- A count or address as a 32-bit register value. -/
def wordOf (n : Nat) : Word := BitVec.ofNat 32 n

/-! ## Span checks (R104), in unbounded integers -/

/-- `SRC_BASE + SRC_LEN <= BUF_SIZE` and `SRC_BITPOS <= 8 * SRC_LEN`. -/
def State.srcInBounds (s : State) : Bool :=
  decide (s.src.base.toNat + s.src.len.toNat ≤ s.cfg.bufSize) && decide (s.src.pos.toNat ≤ 8 * s.src.len.toNat)

/-- `DST_BASE + DST_LEN <= BUF_SIZE` and `DST_POS <= DST_LEN`. -/
def State.dstInBounds (s : State) : Bool :=
  decide (s.dst.base.toNat + s.dst.len.toNat ≤ s.cfg.bufSize) && decide (s.dst.pos.toNat ≤ s.dst.len.toNat)

/-- The source-span check of R104, raising OutOfBounds(SRC_BASE). -/
def State.checkSrc (s : State) : Run Unit := require s.srcInBounds .outOfBounds s.src.base

/-- The destination-span check of R104, raising OutOfBounds(DST_BASE). -/
def State.checkDst (s : State) : Run Unit := require s.dstInBounds .outOfBounds s.dst.base

/-- A direct access to `n` bytes at an `ARGi` address (R104), raising OutOfBounds(address). -/
def State.checkDirect (s : State) (addr : Word) (n : Nat) : Run Unit :=
  require (decide (addr.toNat + n ≤ s.cfg.bufSize)) .outOfBounds addr

/-- Whether the source span and the destination span share a byte (R119). -/
def State.spansOverlap (s : State) : Bool :=
  decide (s.src.base.toNat < s.dst.base.toNat + s.dst.len.toNat)
    && decide (s.dst.base.toNat < s.src.base.toNat + s.src.len.toNat)
    && decide (0 < s.src.len.toNat) && decide (0 < s.dst.len.toNat)

/-- A command with both spans starts: overlapping spans taint it (R119). -/
def State.markOverlap (s : State) : State := { s with tainted := s.tainted || s.spansOverlap }

/-! ## The moving part of a command's accesses -/

/-- What a command reads of the spans and never changes. -/
structure Env where
  srcBase : Nat
  srcLen : Nat
  dstBase : Nat
  dstLen : Nat
  lsb : Bool
  taint : Option Nat
  deriving DecidableEq, Repr

/-- What a command's reads and writes change: BUF, the source cursor in bits, the destination cursor in bytes. -/
structure Io where
  buf : Store 8
  pos : Nat
  out : Nat
  deriving DecidableEq, Repr

/-- The spans as the command starts. -/
def State.env (s : State) : Env :=
  ⟨s.src.base.toNat, s.src.len.toNat, s.dst.base.toNat, s.dst.len.toNat, s.lsb, s.taint⟩

/-- BUF and the cursors as the command starts. -/
def State.io (s : State) : Io := ⟨s.buf, s.src.pos.toNat, s.dst.pos.toNat⟩

/-- BUF and the cursors written back (R34). -/
def State.withIo (s : State) (io : Io) : State :=
  { s with
    buf := io.buf
    src := { s.src with pos := wordOf io.pos }
    dst := { s.dst with pos := wordOf io.out } }

/-- The source cursor alone written back, for a command that writes no BUF byte. -/
def State.withPos (s : State) (io : Io) : State := { s with src := { s.src with pos := wordOf io.pos } }

/-! ## Source primitives (R106 to R108) -/

/-- The bit at cursor `p`: byte bit `7 - k` with BR_LSB = 0, bit `k` with BR_LSB = 1, `k = p & 7` (R106). -/
def bitAt (e : Env) (buf : Store 8) (p : Nat) : Bool :=
  let byte := buf.get (e.srcBase + p / 8)
  if e.lsb then byte.getLsbD (p % 8) else byte.getLsbD (7 - p % 8)

/-- A bit as a number. -/
def bitNat (b : Bool) : Nat := if b then 1 else 0

/-- `SrcBit()` (R106). -/
def srcBit (e : Env) (io : Io) : Run (Nat × Io) :=
  if 8 * e.srcLen ≤ io.pos then raise .truncatedInput (wordOf io.pos)
  else .ok (bitNat (bitAt e io.buf io.pos), { io with pos := io.pos + 1 })

/-- `n` further bits of `SrcBits` (R107): `v` holds the `i` bits read so far. -/
def srcBitsFrom (e : Env) (n i v : Nat) (io : Io) : Run (Nat × Io) :=
  match n with
  | 0 => .ok (v, io)
  | n + 1 =>
    match srcBit e io with
    | .error r => .error r
    | .ok (b, io) => srcBitsFrom e n (i + 1) (if e.lsb then v + b * 2 ^ i else 2 * v + b) io

/-- `SrcBits(n)` (R107): the first bit is the most significant with BR_LSB = 0, bit 0 with BR_LSB = 1. -/
def srcBits (e : Env) (n : Nat) (io : Io) : Run (Nat × Io) := srcBitsFrom e n 0 0 io

/-- The next byte boundary of a bit cursor: `(p + 7) & ~7` (R108, R176). -/
def alignUp (p : Nat) : Nat := (p + 7) / 8 * 8

/-- `SrcByte()` (R108): align the cursor up, then the whole byte. -/
def srcByte (e : Env) (io : Io) : Run (Byte × Io) :=
  let p := alignUp io.pos
  if 8 * e.srcLen ≤ p then raise .truncatedInput (wordOf p)
  else .ok (io.buf.get (e.srcBase + p / 8), { io with pos := p + 8 })

/-! ## Destination primitive (R109) -/

/-- `DstPut(b)` (R109). -/
def dstPut (e : Env) (io : Io) (b : Byte) : Io :=
  { io with buf := putByte e.taint io.buf (e.dstBase + io.out) b, out := io.out + 1 }

/-- `DST_POS = DST_LEN`: no room left. -/
def dstFull (e : Env) (io : Io) : Bool := decide (e.dstLen ≤ io.out)

end Sys2Proof.Machine
end

