-- ==== Sys2Proof/Machine/BitReader.lean ====
section
/-! DEFINITION. Unit 1, BR, the bit reader (40_sys_bitreader.md R170 to R178). -/

namespace Sys2Proof.Machine

/-- BR_INIT lsb (R172). -/
def execBrInit (lsb : BitVec 1) (s : State) : Host.Outcome State Fault Refusal :=
  runCommand s ⟨1, 0⟩ (.ok ()) (.ok { s with lsb := lsb == 1 }) s

/-- `if SRC_BITPOS + n > 8 * SRC_LEN: raise TruncatedInput(SRC_BITPOS)` before any bit is consumed (R173, R174, R506). -/
def State.checkBitsLeft (s : State) (n : Nat) : Run Unit :=
  require (decide (s.src.pos.toNat + n ≤ 8 * s.src.len.toNat)) .truncatedInput s.src.pos

/-- BR_GETBIT (R173). -/
def execBrGetbit (s : State) : Host.Outcome State Fault Refusal :=
  runCommand s ⟨1, 1⟩
    (do s.checkSrc; s.checkBitsLeft 1)
    (do let (b, io) ← srcBit s.env s.io
        return (s.withPos io).setResult (wordOf b))
    s

/-- BR_GETBITS n (R174): the operand check comes first (R515; log 12). -/
def execBrGetbits (n : BitVec 6) (s : State) : Host.Outcome State Fault Refusal :=
  runCommand s ⟨1, 2⟩
    (do require (decide (n.toNat ≤ 32)) .badOperand (immWord n)
        s.checkSrc
        s.checkBitsLeft n.toNat)
    (do let (v, io) ← srcBits s.env n.toNat s.io
        return (s.withPos io).setResult (wordOf v))
    s

/-- The `n` bits of BR_PEEKBITS from cursor `p`, the `i`-th of them next; a bit at or past `limit` reads 0 (R175). -/
def peekFrom (e : Env) (buf : Store 8) (limit p n i v : Nat) : Nat :=
  match n with
  | 0 => v
  | n + 1 =>
    let b := if p < limit then bitNat (bitAt e buf p) else 0
    peekFrom e buf limit (p + 1) n (i + 1) (if e.lsb then v + b * 2 ^ i else 2 * v + b)

/-- BR_PEEKBITS n (R175): RESULT the bits, RESULT1 how many of them are valid; the cursor stays. -/
def execBrPeekbits (n : BitVec 6) (s : State) : Host.Outcome State Fault Refusal :=
  runCommand s ⟨1, 3⟩
    (do require (decide (n.toNat ≤ 32)) .badOperand (immWord n)
        s.checkSrc)
    (.ok ((s.setResult (wordOf (peekFrom s.env s.buf (8 * s.src.len.toNat) s.src.pos.toNat n.toNat 0 0))).setResult1
      (wordOf (min n.toNat (8 * s.src.len.toNat - s.src.pos.toNat)))))
    s

/-- BR_ALIGN (R176). -/
def execBrAlign (s : State) : Host.Outcome State Fault Refusal :=
  runCommand s ⟨1, 4⟩ s.checkSrc
    (.ok ((s.withPos { s.io with pos := alignUp s.src.pos.toNat }).setResult
      (wordOf (alignUp s.src.pos.toNat - s.src.pos.toNat))))
    s

end Sys2Proof.Machine
end

