-- ==== Sys2Proof/Machine/Camellia.lean ====
section
/-! DEFINITION. Unit 7, CAM, Camellia-128 block decryption (45_camellia.md R380 to R396). -/

namespace Sys2Proof.Machine

/-! ## Tables (R383 to R385) -/

/-- Rows 0x00 to 0x70 of CAM_SBOX1 (R383). -/
def camSboxLow : List Nat :=
  [112, 130, 44, 236, 179, 39, 192, 229, 228, 133, 87, 53, 234, 12, 174, 65]
  ++ [35, 239, 107, 147, 69, 25, 165, 33, 237, 14, 79, 78, 29, 101, 146, 189]
  ++ [134, 184, 175, 143, 124, 235, 31, 206, 62, 48, 220, 95, 94, 197, 11, 26]
  ++ [166, 225, 57, 202, 213, 71, 93, 61, 217, 1, 90, 214, 81, 86, 108, 77]
  ++ [139, 13, 154, 102, 251, 204, 176, 45, 116, 18, 43, 32, 240, 177, 132, 153]
  ++ [223, 76, 203, 194, 52, 126, 118, 5, 109, 183, 169, 49, 209, 23, 4, 215]
  ++ [20, 88, 58, 97, 222, 27, 17, 28, 50, 15, 156, 22, 83, 24, 242, 34]
  ++ [254, 68, 207, 178, 195, 181, 122, 145, 36, 8, 232, 168, 96, 252, 105, 80]

/-- Rows 0x80 to 0xF0 of CAM_SBOX1 (R383). -/
def camSboxHigh : List Nat :=
  [170, 208, 160, 125, 161, 137, 98, 151, 84, 91, 30, 149, 224, 255, 100, 210]
  ++ [16, 196, 0, 72, 163, 247, 117, 219, 138, 3, 230, 218, 9, 63, 221, 148]
  ++ [135, 92, 131, 2, 205, 74, 144, 51, 115, 103, 246, 243, 157, 127, 191, 226]
  ++ [82, 155, 216, 38, 200, 55, 198, 59, 129, 150, 111, 75, 19, 190, 99, 46]
  ++ [233, 121, 167, 140, 159, 110, 188, 142, 41, 245, 249, 182, 47, 253, 180, 89]
  ++ [120, 152, 6, 106, 231, 70, 113, 186, 212, 37, 171, 66, 136, 162, 141, 250]
  ++ [114, 7, 185, 85, 248, 238, 172, 10, 54, 73, 42, 104, 60, 56, 241, 164]
  ++ [64, 40, 211, 123, 187, 201, 67, 193, 21, 227, 173, 244, 119, 199, 128, 158]

/-- `CAM_SBOX1[x]`, and S1 (R383, R385). -/
def camS1 (x : Byte) : Byte := BitVec.ofNat 8 ((camSboxLow ++ camSboxHigh).getD x.toNat 0)

/-- S2 (R385). -/
def camS2 (x : Byte) : Byte := (camS1 x).rotateLeft 1

/-- S3 (R385). -/
def camS3 (x : Byte) : Byte := (camS1 x).rotateLeft 7

/-- S4 (R385). -/
def camS4 (x : Byte) : Byte := camS1 (x.rotateLeft 1)

/-- The key-schedule constants a 128-bit key uses (R384). -/
def camSigma1 : BitVec 64 := 0xA09E667F3BCC908B
/-- The second (R384). -/
def camSigma2 : BitVec 64 := 0xB67AE8584CAA73B2
/-- The third (R384). -/
def camSigma3 : BitVec 64 := 0xC6EF372FE94F82BE
/-- The fourth (R384). -/
def camSigma4 : BitVec 64 := 0x54FF53A5F1D36F1C

/-! ## Round functions (R386, R388) -/

/-- Bits 127:64 (R381). -/
def hi64 (x : BitVec 128) : BitVec 64 := x.extractLsb' 64 64

/-- Bits 63:0 (R381). -/
def lo64 (x : BitVec 128) : BitVec 64 := x.extractLsb' 0 64

/-- Byte `t_n` of a u64, 1 the most significant (R381). -/
def camByte (x : BitVec 64) (n : Nat) : Byte := x.extractLsb' (8 * (8 - n)) 8

/-- `F(X, k)` (R386). -/
def camF (x k : BitVec 64) : BitVec 64 :=
  let x := x ^^^ k
  let t1 := camS1 (camByte x 1)
  let t2 := camS2 (camByte x 2)
  let t3 := camS3 (camByte x 3)
  let t4 := camS4 (camByte x 4)
  let t5 := camS2 (camByte x 5)
  let t6 := camS3 (camByte x 6)
  let t7 := camS4 (camByte x 7)
  let t8 := camS1 (camByte x 8)
  let y1 := t1 ^^^ t3 ^^^ t4 ^^^ t6 ^^^ t7 ^^^ t8
  let y2 := t1 ^^^ t2 ^^^ t4 ^^^ t5 ^^^ t7 ^^^ t8
  let y3 := t1 ^^^ t2 ^^^ t3 ^^^ t5 ^^^ t6 ^^^ t8
  let y4 := t2 ^^^ t3 ^^^ t4 ^^^ t5 ^^^ t6 ^^^ t7
  let y5 := t1 ^^^ t2 ^^^ t6 ^^^ t7 ^^^ t8
  let y6 := t2 ^^^ t3 ^^^ t5 ^^^ t7 ^^^ t8
  let y7 := t3 ^^^ t4 ^^^ t5 ^^^ t6 ^^^ t8
  let y8 := t1 ^^^ t4 ^^^ t5 ^^^ t6 ^^^ t7
  y1 ++ y2 ++ y3 ++ y4 ++ y5 ++ y6 ++ y7 ++ y8

/-- `FL(X, k)` (R388). -/
def camFL (x k : BitVec 64) : BitVec 64 :=
  let x1 := x.extractLsb' 32 32
  let x2 := x.extractLsb' 0 32 ^^^ (x1 &&& k.extractLsb' 32 32).rotateLeft 1
  (x1 ^^^ (x2 ||| k.extractLsb' 0 32)) ++ x2

/-- `FLINV(Y, k)` (R388). -/
def camFLInv (y k : BitVec 64) : BitVec 64 :=
  let y2 := y.extractLsb' 0 32
  let y1 := y.extractLsb' 32 32 ^^^ (y2 ||| k.extractLsb' 0 32)
  y1 ++ (y2 ^^^ (y1 &&& k.extractLsb' 32 32).rotateLeft 1)

/-! ## Key schedule and decryption (R387, R389) -/

/-- `CAM_KA` of a key (R387). -/
def camDerive (k : BitVec 128) : BitVec 128 :=
  let d2 := lo64 k ^^^ camF (hi64 k) camSigma1
  let d1 := hi64 k ^^^ camF d2 camSigma2
  let d1 := d1 ^^^ hi64 k
  let d2 := d2 ^^^ lo64 k
  let d2 := d2 ^^^ camF d1 camSigma3
  let d1 := d1 ^^^ camF d2 camSigma4
  d1 ++ d2

/-- `hi` of `X <<< (n + rho)`, a subkey (R387). -/
def subkeyHi (x : BitVec 128) (n rho : Nat) : BitVec 64 := hi64 (x.rotateLeft ((n + rho) % 128))

/-- `lo` of `X <<< (n + rho)`, a subkey (R387). -/
def subkeyLo (x : BitVec 128) (n rho : Nat) : BitVec 64 := lo64 (x.rotateLeft ((n + rho) % 128))

/-- Two Feistel rounds on `(D1, D2)`: `D2 <- D2 xor F(D1, ka); D1 <- D1 xor F(D2, kb)` (R389). -/
def camRounds (d : BitVec 64 × BitVec 64) (ka kb : BitVec 64) : BitVec 64 × BitVec 64 :=
  let d2 := d.2 ^^^ camF d.1 ka
  (d.1 ^^^ camF d2 kb, d2)

/-- The layer between two groups: `D1 <- FL(D1, ka); D2 <- FLINV(D2, kb)` (R389). -/
def camLayer (d : BitVec 64 × BitVec 64) (ka kb : BitVec 64) : BitVec 64 × BitVec 64 :=
  (camFL d.1 ka, camFLInv d.2 kb)

/-- `CamDec(C, rho)` under the key `L` and the derived key `A` (R387, R389). -/
def camDec (l a c : BitVec 128) (rho : Nat) : BitVec 128 :=
  let d := (hi64 c ^^^ subkeyHi a 111 rho, lo64 c ^^^ subkeyLo a 111 rho)
  let d := camRounds d (subkeyLo l 111 rho) (subkeyHi l 111 rho)
  let d := camRounds d (subkeyLo a 94 rho) (subkeyHi a 94 rho)
  let d := camRounds d (subkeyLo l 94 rho) (subkeyHi l 94 rho)
  let d := camLayer d (subkeyLo l 77 rho) (subkeyHi l 77 rho)
  let d := camRounds d (subkeyLo a 60 rho) (subkeyHi a 60 rho)
  let d := camRounds d (subkeyLo l 60 rho) (subkeyHi a 45 rho)
  let d := camRounds d (subkeyLo l 45 rho) (subkeyHi l 45 rho)
  let d := camLayer d (subkeyLo a 30 rho) (subkeyHi a 30 rho)
  let d := camRounds d (subkeyLo a 15 rho) (subkeyHi a 15 rho)
  let d := camRounds d (subkeyLo l 15 rho) (subkeyHi l 15 rho)
  let d := camRounds d (subkeyLo a 0 rho) (subkeyHi a 0 rho)
  (d.2 ^^^ subkeyHi l 0 rho) ++ (d.1 ^^^ subkeyLo l 0 rho)

/-- `CAM_ROT(bo)`, the OPEN parameter with its default (R391; log 5). -/
def State.camRot (s : State) (bo : BitVec 64) : Nat :=
  match s.cfg.camRot with
  | .unperturbed => 0
  | .salted => (Config.camRotOpen bo).toNat

/-- One block decrypted: `C <- BE(MemRead(a, 16))`, its plaintext (R392, R393). -/
def State.camBlock (s : State) (buf : Store 8) (a : Nat) (bo : BitVec 64) : BitVec 128 :=
  camDec s.cam.kl s.cam.ka (BitVec.ofNat 128 (beNat (memRead buf a 16))) (s.camRot bo)

/-- BUF with the block at `a` decrypted in place (R393). -/
def State.camDecryptAt (s : State) (buf : Store 8) (a : Nat) (bo : BitVec 64) : Store 8 :=
  memWriteBE s.taint buf a 16 (s.camBlock buf a bo).toNat

/-- `for i in 0..nblk-1` of CAM_DECRANGE (R394): `n` further blocks from address `a` and block offset `bo`. -/
def State.camDecryptFrom (s : State) (n a : Nat) (bo : BitVec 64) (buf : Store 8) : Store 8 :=
  match n with
  | 0 => buf
  | n + 1 => s.camDecryptFrom n (a + 16) (bo + 16) (s.camDecryptAt buf a bo)

/-- `ARG6 || ARG5` (R393, R394). -/
def State.camOffset (s : State) : BitVec 64 := s.arg 6 ++ s.arg 5

/-! ## Commands -/

/-- CAM_SETKEY (R390). -/
def execCamSetkey (s : State) : Host.Outcome State Fault Refusal :=
  let k : BitVec 128 := s.arg 0 ++ s.arg 1 ++ s.arg 2 ++ s.arg 3
  runCommand s ⟨7, 0⟩ (.ok ()) (.ok { s with cam := ⟨true, k, camDerive k⟩ }) s

/-- CAM_DECBLK (R393). -/
def execCamDecblk (s : State) : Host.Outcome State Fault Refusal :=
  runCommand s ⟨7, 1⟩
    (do s.requireReady s.cam.keyed
        s.checkDirect (s.arg 4) 16)
    (.ok { s with buf := s.camDecryptAt s.buf (s.arg 4).toNat s.camOffset })
    s

/-- CAM_DECRANGE (R394). -/
def execCamDecrange (s : State) : Host.Outcome State Fault Refusal :=
  let nblk := (s.arg 7).toNat / 16
  runCommand s ⟨7, 2⟩
    (do s.requireReady s.cam.keyed
        s.checkDirect (s.arg 4) (16 * nblk))
    (.ok ({ s with buf := s.camDecryptFrom nblk (s.arg 4).toNat s.camOffset s.buf }.setResult (wordOf (16 * nblk))))
    s

end Sys2Proof.Machine
end

