-- ==== Sys2Proof/Machine/Golomb.lean ====
section
/-! DEFINITION. Unit 5, GOL, the gamma and Golomb bit decoders (43_golomb_gamma.md R300 to R321). -/

namespace Sys2Proof.Machine

/-! ## Gamma codes -/

/-- The pair loop of `EriGamma()` (R300): `code`, `base` and the pairs read so far; `left` more pairs may be read. -/
def eriPairs (e : Env) (left code base pairs : Nat) (io : Io) : Run (Nat × Nat × Io) := do
  let (d, io) ← srcBit e io
  let (more, io) ← srcBit e io
  let code := 2 * code + d
  if more = 0 then return (code + base, 1 + 2 * (pairs + 1), io)
  else
    match left with
    | 0 => raise .formatError (wordOf io.pos)
    | left + 1 => eriPairs e left code (2 * base) (pairs + 1) io

/-- `EriGamma()` (R300): the value, the code length; at most 31 pairs. -/
def eriGamma (e : Env) (io : Io) : Run (Nat × Nat × Io) := do
  let (b, io) ← srcBit e io
  if b = 0 then return (1, 1, io) else eriPairs e 30 0 2 0 io

/-- The zero bits of `RunGamma()` (R301): `z` read so far, `left` more before the 32nd. -/
def runZeros (e : Env) (left z : Nat) (io : Io) : Run (Nat × Io) := do
  let (b, io) ← srcBit e io
  if b ≠ 0 then return (z, io)
  else
    match left with
    | 0 => raise .formatError (wordOf io.pos)
    | left + 1 => runZeros e left (z + 1) io

/-- `RunGamma()` (R301): the value, the code length. -/
def runGamma (e : Env) (io : Io) : Run (Nat × Nat × Io) := do
  let (z, io) ← runZeros e 31 0 io
  let (v, io) ← srcBits e z io
  return (2 ^ z + v, 2 * z + 1, io)

/-! ## The adaptive Golomb-Rice value -/

/-- GOL_COMPRESSED[n] (R316): how many accumulator values have bit length 0, 1, .., 8. -/
def golCompressed (n : BitVec 2) : List Nat :=
  match n.toNat with
  | 0 => [3, 7, 15, 27, 63, 108, 223, 448, 130]
  | 1 => [3, 5, 13, 24, 51, 95, 192, 384, 257]
  | 2 => [2, 5, 12, 21, 39, 86, 155, 320, 384]
  | _ => [2, 3, 9, 18, 33, 61, 129, 258, 511]

/-- The smallest `i` with `a` below the sum of the first `i + 1` entries (R316). -/
def firstBelow (row : List Nat) (a : Nat) : Nat :=
  match row with
  | [] => 0
  | x :: rest => if a < x then 0 else 1 + firstBelow rest (a - x)

/-- GOL_TABLE[a][n] (R316). -/
def golTable (a : Nat) (n : BitVec 2) : Nat := firstBelow (golCompressed n) a

/-- A source byte by its offset in the span, 0 at or past SRC_LEN (R318). -/
def spanByte (e : Env) (buf : Store 8) (i : Nat) : Byte :=
  if i < e.srcLen then buf.get (e.srcBase + i) else 0

/-- `Window32()` (R318). -/
def window32 (e : Env) (io : Io) : Nat :=
  leNat ((List.range 4).map (fun i => spanByte e io.buf (io.pos / 8 + i))) >>> (io.pos % 8)

/-- The escape prefix of `GolValue()` (R318): the byte after the window. -/
def golEscape (e : Env) (io : Io) : Run (Nat × Io) :=
  let p := io.pos / 8
  if e.srcLen ≤ p + 4 then raise .truncatedInput (wordOf io.pos)
  else .ok ((io.buf.get (e.srcBase + p + 4)).toNat, { io with pos := (p + 5) * 8 })

/-- The unary prefix of `GolValue()` (R318): `q` zeros read so far, `left` more before the 256th. -/
def golUnary (e : Env) (left q : Nat) (io : Io) : Run (Nat × Io) := do
  let (b, io) ← srcBit e io
  if b ≠ 0 then return (q, io)
  else
    match left with
    | 0 => raise .formatError (wordOf io.pos)
    | left + 1 => golUnary e left (q + 1) io

/-- The prefix `q` of `GolValue()` (R318): the escape only in LSB-first order with no 1 bit in the window. -/
def golPrefix (e : Env) (io : Io) : Run (Nat × Io) :=
  if e.lsb && window32 e io == 0 then golEscape e io else golUnary e 255 0 io

/-- The residual of a coded value (R318): odd codes positive, even codes negative, never 0. -/
def golResidual (v : Nat) : Word :=
  if v % 2 = 1 then wordOf (v / 2 + 1) else - wordOf (v / 2 + 1)

/-- The context after a coded value (R318): `a` grows by the magnitude, `n` steps down, and on wrap-around `a` is halved. -/
def golAdapt (g : Gol) (v : Nat) : Gol :=
  let a := g.a + wordOf (v / 2)
  if g.n = 0 then ⟨a >>> 1, 3⟩ else ⟨a, g.n - 1⟩

/-- What `GolValue()` answers (R318). -/
structure GolCode where
  residual : Word
  k : Nat
  gol : Gol
  io : Io
  deriving DecidableEq, Repr

/-- `GolValue()` (R318). -/
def golValue (e : Env) (g : Gol) (io : Io) : Run GolCode :=
  if 1024 ≤ g.a.toNat then raise .formatError g.a
  else do
    let k := golTable g.a.toNat g.n
    let (q, io) ← golPrefix e io
    let (low, io) ← srcBits e k io
    let v := q * 2 ^ k + low
    return ⟨golResidual v, k, golAdapt g v, io⟩

/-! ## Commands -/

/-- GOL_GAMMA (R305). -/
def execGolGamma (s : State) : Host.Outcome State Fault Refusal :=
  runCommand s ⟨5, 0⟩ s.checkSrc
    (do let (v, len, io) ← eriGamma s.env s.io
        return ((s.withPos io).setResult (wordOf v)).setResult1 (wordOf len))
    s.loseSrcPos.endDraws

/-- GOL_RUNLEN (R306). -/
def execGolRunlen (s : State) : Host.Outcome State Fault Refusal :=
  runCommand s ⟨5, 1⟩ s.checkSrc
    (do let (v, len, io) ← runGamma s.env s.io
        return ((s.withPos io).setResult (wordOf v)).setResult1 (wordOf len))
    s.loseSrcPos.endDraws

/-- GOL_VALUE (R319). -/
def execGolValue (s : State) : Host.Outcome State Fault Refusal :=
  runCommand s ⟨5, 2⟩ s.checkSrc
    (do let c ← golValue s.env s.gol s.io
        return (({ s with gol := c.gol }.withPos c.io).setResult c.residual).setResult1 (wordOf c.k))
    s.loseSrcPos.loseGol.endDraws

/-- GOL_RESETCTX (R317). -/
def execGolResetctx (s : State) : Host.Outcome State Fault Refusal :=
  runCommand s ⟨5, 3⟩ (.ok ()) (.ok { s with gol := ⟨0, 3⟩ }) s

/-- What the loops of GOL_DECODE carry (R320). -/
structure GolLoop where
  gol : Gol
  io : Io
  deriving DecidableEq, Repr

/-- `for j in 0..c-1` of GOL_DECODE (R320): `c` bytes at `stride` from address `at_` on, zeros or coded values. -/
def golRun (e : Env) (zero : Bool) (stride c at_ : Nat) (l : GolLoop) : Run GolLoop :=
  match c with
  | 0 => .ok l
  | c + 1 =>
    if zero then golRun e zero stride c (at_ + stride) { l with io := { l.io with buf := putByte e.taint l.io.buf at_ 0 } }
    else
      match golValue e l.gol l.io with
      | .error r => .error r
      | .ok v =>
        golRun e zero stride c (at_ + stride)
          ⟨v.gol, { v.io with buf := putByte e.taint v.io.buf at_ (v.residual.setWidth 8) }⟩

/-- `while i < ARG0` of GOL_DECODE (R320). A run has at least one value, so `fuel = count - i` turns reach the count. -/
def golRuns (e : Env) (stride count base fuel i : Nat) (zero : Bool) (l : GolLoop) : Run GolLoop :=
  match fuel with
  | 0 => .ok l
  | fuel + 1 =>
    if i < count then
      match runGamma e l.io with
      | .error r => .error r
      | .ok (c, _, io) =>
        if count < i + c then raise .formatError (wordOf (i + c))
        else
          match golRun e zero stride c (base + i * stride) { l with io := io } with
          | .error r => .error r
          | .ok l => golRuns e stride count base fuel (i + c) (!zero) l
    else .ok l

/-- The address of output `j` of GOL_DECODE (R320). -/
def State.golOut (s : State) (j : Nat) : Nat :=
  s.dst.base.toNat + s.dst.pos.toNat + j * (s.arg 1).toNat

/-- The checks of GOL_DECODE (R320): none when the count is 0. -/
def State.checkGolDecode (s : State) : Run Unit :=
  if s.arg 0 = 0 then .ok ()
  else do
    require (s.arg 1 != 0) .badOperand (s.arg 1)
    s.checkSrc
    s.checkDst
    require (decide (s.dst.pos.toNat + ((s.arg 0).toNat - 1) * (s.arg 1).toNat < s.dst.len.toNat)) .outOfBounds s.dst.base

/-- The body of GOL_DECODE (R320); with a count of 0 it reads nothing (20_memory.md R110). -/
def golDecodeBody (s : State) : Run State :=
  if s.arg 0 = 0 then .ok (s.setResult 0)
  else do
    let (b, io) ← srcBit s.env s.io
    let l ← golRuns s.env (s.arg 1).toNat (s.arg 0).toNat (s.golOut 0) (s.arg 0).toNat 0 (b == 0) ⟨⟨0, 3⟩, io⟩
    return ({ s with gol := l.gol }.withIo l.io).setResult (s.arg 0)

/-- GOL_DECODE (R320): DST_POS is not changed. -/
def execGolDecode (s : State) : Host.Outcome State Fault Refusal :=
  runCommand s ⟨5, 4⟩ s.checkGolDecode
    (golDecodeBody (if s.arg 0 = 0 then s else s.markOverlap))
    ((s.markOverlap.loseSrcPos.loseBytes ((List.range (s.arg 0).toNat).map s.golOut)).loseGol.endDraws)

end Sys2Proof.Machine
end

