-- ==== Sys2Proof/Machine/Huffman.lean ====
section
/-! DEFINITION. Unit 4, HUF, the adaptive Huffman tree decoder (42_huffman.md R260 to R286). Node indexes are plain numbers;
`W`, `P`, `C`, `SYM`, `ESC`, `TP` keep the widths of R260. A walk over the tree carries a bound on its length: in a tree the rules
build every walk ends within it (log 11). -/

namespace Sys2Proof.Machine

/-- ROOT = 0x200 (R260). -/
def hufRoot : Nat := 0x200

/-- NULL = 0x8000 (R260). -/
def hufNull : BitVec 16 := 0x8000

/-- The escape leaf: `CODE_FLAG | ESC_CODE` (R260). -/
def hufEscape : BitVec 32 := 0xFFFFFFFF

/-- `CODE_FLAG | s` (R260). -/
def leafCode (s : Byte) : BitVec 32 := 0x80000000 ||| s.setWidth 32

/-- A `C` value has CODE_FLAG: the node is a leaf (R260). -/
def isLeafCode (c : BitVec 32) : Bool := c.msb

/-- HUF_MAX (00_scope.md R6). -/
def hufMax : Nat := 0x4000

/-- A node index as a `P`, `ESC`, `TP` or `SYM` value. -/
def nodeRef (i : Nat) : BitVec 16 := BitVec.ofNat 16 i

/-- The empty tree of `HufTreeInit` (R262). -/
def emptyTree : Tree where
  w := blankStore 0
  p := (blankStore 0).set hufRoot hufNull
  c := (blankStore 0).set hufRoot 0x8000
  sym := blankStore hufNull
  esc := hufNull
  tp := nodeRef hufRoot

/-- The index `C[q]` of an internal node's first child. -/
def Tree.child (t : Tree) (q : Nat) : Nat := (t.c.get q).toNat

/-- `W[i]` as a number. -/
def Tree.weight (t : Tree) (i : Nat) : Nat := (t.w.get i).toNat

/-- `Fix(pos)` (R263). -/
def Tree.fix (t : Tree) (pos : Nat) : Tree :=
  let c := t.c.get pos
  if isLeafCode c then
    if c = hufEscape then { t with esc := nodeRef pos }
    else { t with sym := t.sym.set (c.toNat % 256) (nodeRef pos) }
  else { t with p := (t.p.set c.toNat (nodeRef pos)).set (c.toNat + 1) (nodeRef pos) }

/-- `Recount(q)` (R263). -/
def Tree.recount (t : Tree) (q : Nat) : Tree :=
  { t with w := t.w.set q (t.w.get (t.child q) + t.w.get (t.child q + 1)) }

/-- `NODE[dest] <- NODE[src]`: W, P and C. -/
def Tree.moveNode (t : Tree) (dest src : Nat) : Tree :=
  { t with w := t.w.set dest (t.w.get src), p := t.p.set dest (t.p.get src), c := t.c.set dest (t.c.get src) }

/-- `(W, C)` of two nodes exchanged, the P fields in place (R264). -/
def Tree.swapNodes (t : Tree) (a b : Nat) : Tree :=
  { t with
    w := (t.w.set a (t.w.get b)).set b (t.w.get a)
    c := (t.c.set a (t.c.get b)).set b (t.c.get a) }

/-- `while sw < ROOT and W[sw] < w: sw <- sw + 1` (R264). -/
def Tree.firstNotLighter (t : Tree) (w fuel sw : Nat) : Nat :=
  match fuel with
  | 0 => sw
  | fuel + 1 => if sw < hufRoot ∧ t.weight sw < w then t.firstNotLighter w fuel (sw + 1) else sw

/-- `Normalize(e)` (R264). -/
def Tree.normalizeFrom (t : Tree) (fuel e : Nat) : Tree :=
  match fuel with
  | 0 => t
  | fuel + 1 =>
    if e < hufRoot then
      let sw := t.firstNotLighter (t.weight e) 513 (e + 1) - 1
      if sw = e then
        let up := (t.p.get e).toNat
        (t.recount up).normalizeFrom fuel up
      else
        let sp := (t.p.get sw).toNat
        ((((t.swapNodes e sw).fix sw).fix e).recount sp).normalizeFrom fuel sp
    else t

/-- `Normalize(e)` (R264): in a tree the rules build a parent's index is above its child's, so 513 turns end it. -/
def Tree.normalize (t : Tree) (e : Nat) : Tree := t.normalizeFrom 513 e

/-- `for i in ROOT-1 down to TP` of `HalfAndRebuild` (R267), the `n` nodes from `tp` on: the leaves halved and packed below `nxt`.
Answers the tree and the last `nxt`. -/
def Tree.packLeaves (t : Tree) (tp n nxt : Nat) : Tree × Nat :=
  match n with
  | 0 => (t, nxt)
  | m + 1 =>
    let i := tp + m
    if isLeafCode (t.c.get i) then
      let t := { t with w := t.w.set i ((t.w.get i + 1) >>> 1) }
      (t.moveNode nxt i).packLeaves tp m (nxt - 1)
    else t.packLeaves tp m nxt

/-- `W[i] <- w; C[i] <- c`. -/
def Tree.setParent (t : Tree) (i : Nat) (w : BitVec 16) (c : Nat) : Tree :=
  { t with w := t.w.set i w, c := t.c.set i (BitVec.ofNat 32 c) }

/-- The sorted insert of a new parent with weight `w` and first child `c` (R267). -/
def Tree.insertParent (t : Tree) (fuel j : Nat) (w : BitVec 16) (c : Nat) : Tree :=
  match fuel with
  | 0 => t
  | fuel + 1 =>
    if w.toNat ≤ t.weight j then t.setParent (j - 1) w c
    else
      let t := t.moveNode (j - 1) j
      if hufRoot < j + 1 then t.setParent j w c else t.insertParent fuel (j + 1) w c

/-- The merge loop of `HalfAndRebuild` (R267). -/
def Tree.mergeFrom (t : Tree) (fuel i nxt : Nat) : Tree :=
  match fuel with
  | 0 => t
  | fuel + 1 =>
    let t := (((t.moveNode i nxt).moveNode (i + 1) (nxt + 1)).fix i).fix (i + 1)
    let w := t.w.get i + t.w.get (i + 1)
    if nxt + 2 ≤ hufRoot then (t.insertParent 513 (nxt + 2) w i).mergeFrom fuel (i + 2) (nxt + 1)
    else
      let t := t.setParent hufRoot w i
      { t with p := ((t.p.set hufRoot hufNull).set i (nodeRef hufRoot)).set (i + 1) (nodeRef hufRoot) }

/-- `HalfAndRebuild()` (R267). -/
def Tree.halfAndRebuild (t : Tree) : Tree :=
  let tp := t.tp.toNat
  let (t, nxt) := t.packLeaves tp (hufRoot - tp) hufRoot
  t.mergeFrom 513 tp (nxt + 1)

/-- `Increase(e)` (R265). -/
def Tree.increase (t : Tree) (e : Nat) : Tree :=
  let t := { t with w := t.w.set e (t.w.get e + 1) }.normalize e
  if hufMax ≤ t.weight hufRoot then t.halfAndRebuild else t

/-- The first symbol of an empty tree (R266): leaf `i`, escape leaf `i + 1`, root of weight 2. -/
def Tree.addFirst (t : Tree) (i : Nat) : Tree :=
  { t with
    p := (t.p.set i (nodeRef hufRoot)).set (i + 1) (nodeRef hufRoot)
    w := (t.w.set (i + 1) 1).set hufRoot 2
    c := (t.c.set (i + 1) hufEscape).set hufRoot (BitVec.ofNat 32 i)
    esc := nodeRef (i + 1) }

/-- A further symbol (R266): the lightest node moves down one slot and a new internal node takes its place. -/
def Tree.addMore (t : Tree) (i : Nat) : Tree :=
  let t := (t.moveNode (i + 1) (i + 2)).fix (i + 1)
  let t := { t with
    w := t.w.set (i + 2) (1 + t.w.get (i + 1))
    p := ((t.p.set (i + 2) (t.p.get (i + 1))).set i (nodeRef (i + 2))).set (i + 1) (nodeRef (i + 2))
    c := t.c.set (i + 2) (BitVec.ofNat 32 i) }
  t.normalize (i + 2)

/-- `AddNewEntry(s)` (R266). -/
def Tree.addNewEntry (t : Tree) (s : Byte) : Tree :=
  if 0 < t.tp.toNat then
    let i := t.tp.toNat - 2
    let wasEmpty := t.c.get hufRoot == 0x8000
    let t := { t with
      tp := nodeRef i
      w := t.w.set i 1
      c := t.c.set i (leafCode s)
      sym := t.sym.set s.toNat (nodeRef i) }
    if wasEmpty then t.addFirst i else t.addMore i
  else
    let i := if t.c.get t.tp.toNat = hufEscape then t.tp.toNat + 1 else t.tp.toNat
    { t with c := t.c.set i (leafCode s), sym := t.sym.set s.toNat (nodeRef i) }

/-- The walk of `HufDecodeTree` (R268) from a node whose `C` is `ch` down to a leaf. Each turn reads a bit or raises, so `fuel`
greater than the bits left is never used up. -/
def hufWalk (e : Env) (c : Store 32) (fuel : Nat) (ch : BitVec 32) (io : Io) : Run (Nat × Io) :=
  match fuel with
  | 0 => raise .truncatedInput (wordOf io.pos)
  | fuel + 1 =>
    match srcBit e io with
    | .error r => .error r
    | .ok (b, io) =>
      let node := ch.toNat + b
      if isLeafCode (c.get node) then .ok (node, io) else hufWalk e c fuel (c.get node) io

/-- What `HufDecodeTree` answers (R268): the symbol, whether it came as a literal, the tree after it. -/
structure HufCode where
  sym : Byte
  lit : Bool
  tree : Tree
  deriving DecidableEq, Repr

/-- The literal of `HufDecodeTree` (R268). -/
def hufLiteral (e : Env) (t : Tree) (io : Io) : Run (HufCode × Io) := do
  let (v, io) ← srcBits e 8 io
  return (⟨BitVec.ofNat 8 v, true, t.addNewEntry (BitVec.ofNat 8 v)⟩, io)

/-- `HufDecodeTree(t)` (R268). -/
def hufDecodeTree (e : Env) (t : Tree) (io : Io) : Run (HufCode × Io) :=
  if t.esc = hufNull then hufLiteral e t io
  else do
    let (node, io) ← hufWalk e t.c (8 * e.srcLen + 1) (t.c.get hufRoot) io
    let ch := t.c.get node
    let t := t.increase node
    if ch = hufEscape then hufLiteral e t io else return (⟨BitVec.ofNat 8 ch.toNat, false, t⟩, io)

/-- The tree a code is read with (R280): HUF_LAST's in order-1 mode, tree 0 in order-0. -/
def Huf.treeIndex (h : Huf) : Fin 256 := if h.order1 then h.last.toFin else 0

/-- `HUF_VALID` and the source span, the checks of HUF_GETCODE (R280). -/
def State.checkHufGetcode (s : State) : Run Unit := do
  s.requireReady s.huf.valid
  s.checkSrc

/-- HUF after a code (R280): tree `t` and HUF_LAST. -/
def Huf.afterCode (h : Huf) (c : HufCode) : Huf :=
  { h with trees := h.trees.set h.treeIndex.val c.tree h.treeIndex.isLt, last := c.sym }

/-- HUF_INIT order1 (R270). -/
def execHufInit (order1 : BitVec 1) (s : State) : Host.Outcome State Fault Refusal :=
  runCommand s ⟨4, 0⟩ (.ok ())
    (.ok { s with huf := ⟨true, order1 == 1, 0, Vector.replicate 256 emptyTree⟩ }) s

/-- HUF_GETCODE (R280). -/
def execHufGetcode (s : State) : Host.Outcome State Fault Refusal :=
  runCommand s ⟨4, 1⟩ s.checkHufGetcode
    (do let (c, io) ← hufDecodeTree s.env (s.huf.trees[s.huf.treeIndex]) s.io
        return (({ s with huf := s.huf.afterCode c }.withPos io).setResult (c.sym.setWidth 32)).setResult1
          (wordOf (bitNat c.lit)))
    s.loseSrcPos.loseHuf.endDraws

/-- HUF_SETCTX (R281). -/
def execHufSetctx (s : State) : Host.Outcome State Fault Refusal :=
  runCommand s ⟨4, 2⟩
    (do s.requireReady s.huf.valid
        require (decide ((s.arg 0).toNat ≤ 255)) .badOperand (s.arg 0))
    (.ok { s with huf := { s.huf with last := (s.arg 0).setWidth 8 } })
    s

end Sys2Proof.Machine
end

