-- ==== Sys2Proof/Machine/Lzss.lean ====
section
/-! DEFINITION. Unit 6, LZ, the LZSS sliding-window decompressors (44_lzss.md R340 to R356). -/

namespace Sys2Proof.Machine

/-- What the loops of LZ_DECOMPRESS carry. -/
structure LzLoop where
  lz : Lz
  io : Io
  deriving DecidableEq, Repr

/-- `WinPut(b)` (R340). -/
def winPut (z : Lz) (b : Byte) : Lz :=
  { z with win := z.win.set z.r.toNat b, r := BitVec.ofNat 12 ((z.r.toNat + 1) % z.w.toNat) }

/-- `WinPut(b); DstPut(b)` (R350 to R352). -/
def lzEmit (e : Env) (l : LzLoop) (b : Byte) : LzLoop := ⟨winPut l.lz b, dstPut e l.io b⟩

/-- A match of `n` bytes from window position `pos` on, byte by byte (R341), stopping when the destination is full (R350, R351). -/
def lzCopy (e : Env) (n pos : Nat) (l : LzLoop) : LzLoop :=
  match n with
  | 0 => l
  | n + 1 =>
    if dstFull e l.io then l
    else lzCopy e n (pos + 1) (lzEmit e l (l.lz.win.get (pos % l.lz.w.toNat)))

/-- A match of `n` bytes that may not pass the destination's end (R352). -/
def lzCopyStrict (e : Env) (n pos : Nat) (l : LzLoop) : Run LzLoop :=
  match n with
  | 0 => .ok l
  | n + 1 =>
    if dstFull e l.io then raise .formatError (wordOf l.io.out)
    else lzCopyStrict e n (pos + 1) (lzEmit e l (l.lz.win.get (pos % 4096)))

/-- `ctl <- ctl >> 1; if (ctl & 0x100) = 0: ctl <- SrcByte() | 0xFF00` (R350, R352): the flags and whether a flag byte was read. -/
def lzFlags (e : Env) (ctl : Nat) (io : Io) : Run (Nat × Bool × Io) :=
  let ctl := ctl >>> 1
  if ctl &&& 0x100 = 0 then
    match srcByte e io with
    | .error r => .error r
    | .ok (b, io) => .ok (b.toNat ||| 0xFF00, true, io)
  else .ok (ctl, false, io)

/-- One literal or match of variant 0 (R350). -/
def stdStep (e : Env) (ctl : Nat) (l : LzLoop) : Run LzLoop :=
  if ctl &&& 1 = 1 then do
    let (b, io) ← srcByte e l.io
    return lzEmit e { l with io := io } b
  else do
    let (lo, io) ← srcByte e l.io
    let (hi, io) ← srcByte e io
    return lzCopy e ((hi.toNat &&& 0x0F) + 3) (lo.toNat ||| ((hi.toNat &&& 0xF0) <<< 4)) { l with io := io }

/-- The loop of variant 0, STD (R350). Each turn writes at least one byte, so `fuel` equal to the room left ends with it full. -/
def stdFrom (e : Env) (fuel ctl : Nat) (l : LzLoop) : Run LzLoop :=
  match fuel with
  | 0 => .ok l
  | fuel + 1 =>
    if dstFull e l.io then .ok l
    else
      match lzFlags e ctl l.io with
      | .error r => .error r
      | .ok (ctl, _, io) =>
        match stdStep e ctl { l with io := io } with
        | .error r => .error r
        | .ok l => stdFrom e fuel ctl l

/-- One literal or match of variant 1 (R351). -/
def onsStep (e : Env) (l : LzLoop) : Run LzLoop := do
  let (b, io) ← srcBit e l.io
  if b = 1 then
    let (v, io) ← srcBits e 8 io
    return lzEmit e { l with io := io } (BitVec.ofNat 8 v)
  else
    let (i, io) ← srcBits e 8 io
    let (j, io) ← srcBits e 4 io
    return lzCopy e (j + 2) i { l with io := io }

/-- The loop of variant 1, ONS (R351). -/
def onsFrom (e : Env) (fuel : Nat) (l : LzLoop) : Run LzLoop :=
  match fuel with
  | 0 => .ok l
  | fuel + 1 =>
    if dstFull e l.io then .ok l
    else
      match onsStep e l with
      | .error r => .error r
      | .ok l => onsFrom e fuel l

/-- One literal or match of variant 2 (R352). -/
def tlg5Step (e : Env) (ctl : Nat) (l : LzLoop) : Run LzLoop :=
  if ctl &&& 1 = 1 then do
    let (b0, io) ← srcByte e l.io
    let (b1, io) ← srcByte e io
    let pos := b0.toNat ||| ((b1.toNat &&& 0x0F) <<< 8)
    let len := (b1.toNat >>> 4) + 3
    if len = 18 then
      let (x, io) ← srcByte e io
      lzCopyStrict e (len + x.toNat) pos { l with io := io }
    else lzCopyStrict e len pos { l with io := io }
  else if dstFull e l.io then raise .formatError (wordOf l.io.out)
  else do
    let (b, io) ← srcByte e l.io
    return lzEmit e { l with io := io } b

/-- The loop of variant 2, TLG5 (R352). Each turn reads at least one byte, so `fuel` greater than SRC_LEN is never used up. -/
def tlg5From (e : Env) (fuel ctl : Nat) (l : LzLoop) : Run LzLoop :=
  match fuel with
  | 0 => .ok l
  | fuel + 1 =>
    if 8 * e.srcLen ≤ l.io.pos then .ok l
    else
      match lzFlags e ctl l.io with
      | .error r => .error r
      | .ok (ctl, fresh, io) =>
        if fresh && decide (8 * e.srcLen ≤ io.pos) then .ok { l with io := io }
        else
          match tlg5Step e ctl { l with io := io } with
          | .error r => .error r
          | .ok l => tlg5From e fuel ctl l

/-- `WIN[0..n-1] <- v` (R345, R347). -/
def fillWindow (win : Store 8) (n : Nat) (v : Byte) : Store 8 := win.setSpan 0 n (fun _ => v)

/-- The LZ state LZ_INIT leaves (R345): `WIN[W..4095]` keep their values. -/
def lzSeeded (z : Lz) (w : Nat) (fill : Byte) (r0 : Nat) : Lz :=
  ⟨true, fillWindow z.win w fill, BitVec.ofNat 12 r0, BitVec.ofNat 13 w, fill⟩

/-- The window sizes LZ_INIT accepts (R345). -/
def lzWindowSizes : List Nat := [16, 32, 64, 128, 256, 512, 1024, 2048, 4096]

/-- LZ_INIT (R345). -/
def execLzInit (s : State) : Host.Outcome State Fault Refusal :=
  runCommand s ⟨6, 0⟩
    (do require (lzWindowSizes.contains (s.arg 0).toNat) .badOperand (s.arg 0)
        require (decide ((s.arg 1).toNat ≤ 255)) .badOperand (s.arg 1)
        require (decide ((s.arg 2).toNat < (s.arg 0).toNat)) .badOperand (s.arg 2))
    (.ok { s with lz := lzSeeded s.lz (s.arg 0).toNat ((s.arg 1).setWidth 8) (s.arg 2).toNat })
    s

/-- The checks of LZ_DECOMPRESS in their order (R347): variant, readiness, spans. -/
def State.checkLzDecompress (s : State) (v : Nat) : Run Unit := do
  require (decide (v ≤ 4)) .badOperand (wordOf v)
  require (decide (v ≠ 3) && decide (v ≠ 4)) .unsupportedVariant (wordOf v)
  s.requireReady (v == 1 || s.lz.valid)
  s.requireReady (v != 2 || s.lz.w == 4096)
  s.checkSrc
  s.checkDst

/-- The window variant 1 seeds for itself (R347). -/
def lzOns (z : Lz) : Lz := lzSeeded z 256 0 239

/-- The body of a variant (R347 to R352). -/
def lzVariant (s : State) (v : Nat) : Run LzLoop :=
  let room := s.dst.len.toNat - s.dst.pos.toNat
  if v = 0 then stdFrom s.env room 0 ⟨s.lz, s.io⟩
  else if v = 1 then onsFrom s.env room ⟨lzOns s.lz, s.io⟩
  else tlg5From s.env (s.src.len.toNat + 1) 0 ⟨s.lz, { s.io with pos := alignUp s.src.pos.toNat }⟩

/-- The body of LZ_DECOMPRESS after its checks (R347); with no room it reads nothing (20_memory.md R110). -/
def lzBody (s : State) (v : Nat) : Run State :=
  if s.dst.pos = s.dst.len then .ok (s.setResult 0)
  else do
    let l ← lzVariant s v
    return ({ s with lz := l.lz }.withIo l.io).setResult (wordOf (l.io.out - s.dst.pos.toNat))

/-- What an execution error of LZ_DECOMPRESS leaves (R511.2); LZ_W and LZ_FILL as variant 1 wrote them (R347). -/
def State.afterLzError (s : State) (v : Nat) : State :=
  (if v = 1 then { s with lz := lzOns s.lz } else s).loseSrcPos.loseDst.loseLz.endDraws

/-- LZ_DECOMPRESS variant (R347). -/
def execLzDecompress (variant : BitVec 4) (s : State) : Host.Outcome State Fault Refusal :=
  runCommand s ⟨6, 1⟩ (s.checkLzDecompress variant.toNat) (lzBody s.markOverlap variant.toNat)
    (s.markOverlap.afterLzError variant.toNat)

end Sys2Proof.Machine
end

