-- ==== Sys2Proof/Machine/Neko.lean ====
section
/-! DEFINITION. Unit 8, NEKO, the NekoPack word cipher (46_nekopack.md R420 to R426). -/

namespace Sys2Proof.Machine

/-- Lane `l` of a u64: bits `16l+15 .. 16l` (R421). -/
def lane (x : BitVec 64) (l : Nat) : BitVec 16 := x.extractLsb' (16 * l) 16

/-- `PADDW(x, y)` (R421). -/
def paddw (x y : BitVec 64) : BitVec 64 :=
  (lane x 3 + lane y 3) ++ (lane x 2 + lane y 2) ++ (lane x 1 + lane y 1) ++ (lane x 0 + lane y 0)

/-- `NekoWord(c, K)` (R420): the plaintext and the next key. -/
def nekoWord (c k : BitVec 64) : BitVec 64 × BitVec 64 := (c ^^^ k, paddw k c)

/-- The word at an address (R425). -/
def nekoRead (buf : Store 8) (a : Nat) : BitVec 64 := BitVec.ofNat 64 (leNat (memRead buf a 8))

/-- `for j in 0..nw-1` of NEKO_DECRYPT (R424): `n` further words from address `a` on, in place; BUF and the running key. -/
def nekoDecryptFrom (taint : Option Nat) (n a : Nat) (buf : Store 8) (key : BitVec 64) : Store 8 × BitVec 64 :=
  match n with
  | 0 => (buf, key)
  | n + 1 =>
    let (p, key) := nekoWord (nekoRead buf a) key
    nekoDecryptFrom taint n (a + 8) (memWriteLE taint buf a 8 p.toNat) key

/-- NEKO_SETKEY64 (R422). -/
def execNekoSetkey64 (s : State) : Host.Outcome State Fault Refusal :=
  runCommand s ⟨8, 0⟩ (.ok ()) (.ok { s with neko := ⟨true, s.arg 1 ++ s.arg 0⟩ }) s

/-- NEKO_SETHASH (R423; log 6). -/
def execNekoSethash (s : State) : Host.Outcome State Fault Refusal :=
  runCommand s ⟨8, 1⟩ (.ok ()) (.ok { s with neko := ⟨true, Config.nekoKeymix (s.arg 0)⟩ }) s

/-- The body of NEKO_DECRYPT (R424): the running key stays for the next command. -/
def nekoBody (s : State) (nw : Nat) : State :=
  let (buf, key) := nekoDecryptFrom s.taint nw (s.arg 2).toNat s.buf s.neko.key
  { s with buf := buf, neko := { s.neko with key := key } }.setResult (wordOf (8 * nw))

/-- NEKO_DECRYPT (R424). -/
def execNekoDecrypt (s : State) : Host.Outcome State Fault Refusal :=
  let nw := (s.arg 3).toNat / 8
  runCommand s ⟨8, 2⟩
    (do s.requireReady s.neko.keyed
        s.checkDirect (s.arg 2) (8 * nw))
    (.ok (nekoBody s nw))
    s

end Sys2Proof.Machine
end

