-- ==== Sys2Proof/Machine/QsModel.lean ====
section
/-! DEFINITION. Unit 3, QS, the adaptive frequency model (41_range_coder.md R215 to R226). The alphabet is QS_N = 257 symbols;
QS_TBLSHIFT = 7. -/

namespace Sys2Proof.Machine

/-- The halving of one collected frequency: `(f >> 1) | 1` (R216). -/
def halved (f : BitVec 16) : BitVec 16 := f >>> 1 ||| 1

/-- What the halving loop of `QsDoRescale` carries (R216). -/
structure Rescan where
  below : BitVec 16
  missing : BitVec 16
  cf : Store 16
  newf : Store 16
  deriving DecidableEq, Repr

/-- `for i in n down to 1` of `QsDoRescale` (R216): CF[i] the sum below, NEWF[i] halved. -/
def halveFrom (n : Nat) (r : Rescan) : Rescan :=
  match n with
  | 0 => r
  | i + 1 =>
    let f := r.newf.get (i + 1)
    let below := r.below - f
    halveFrom i ⟨below, r.missing - halved f, r.cf.set (i + 1) below, r.newf.set (i + 1) (halved f)⟩

/-- `for i in n down to 1` of the search rebuild (R216): the buckets of symbol `i - 1`. -/
def bucketsFrom (cf : Store 16) (shift n : Nat) (search : Store 16) : Store 16 :=
  match n with
  | 0 => search
  | i + 1 =>
    let lo := (cf.get i).toNat >>> shift
    let hi := (cf.get (i + 1) - 1).toNat >>> shift
    bucketsFrom cf shift i (search.setSpan lo (hi + 1 - lo) (fun _ => BitVec.ofNat 16 i))

/-- The full rescale of `QsDoRescale` (R216), with RESCALE already grown. -/
def qsRebuild (q : Qs) : Qs :=
  let r := halveFrom 256 ⟨q.cf.get 257, q.cf.get 257, q.cf, q.newf⟩
  let f := r.newf.get 0
  let missing := (r.missing - halved f).toNat
  let nextleft := missing % q.rescale.toNat
  { q with
    cf := r.cf
    newf := r.newf.set 0 (halved f)
    incr := BitVec.ofNat 16 (missing / q.rescale.toNat)
    nextleft := BitVec.ofNat 16 nextleft
    left := BitVec.ofNat 16 (q.rescale.toNat - nextleft)
    search := bucketsFrom r.cf q.shift.toNat 257 q.search }

/-- `if RESCALE < TARGET: RESCALE <- min(2 * RESCALE, TARGET)` (R216). -/
def qsGrow (q : Qs) : Qs :=
  if q.rescale.toNat < q.target.toNat then
    { q with rescale := BitVec.ofNat 32 (min (2 * q.rescale.toNat) q.target.toNat) }
  else q

/-- `QsDoRescale()` (R216). -/
def qsDoRescale (q : Qs) : Qs :=
  if q.nextleft ≠ 0 then { q with incr := q.incr + 1, left := q.nextleft, nextleft := 0 }
  else qsRebuild (qsGrow q)

/-- `QsReset()` (R217): `RESCALE <- (257 >> 4) | 2 = 18`, equal frequencies, then a rescale. -/
def qsRestart (q : Qs) : Qs :=
  let total := (q.cf.get 257).toNat
  qsDoRescale { q with
    rescale := 18
    nextleft := 0
    incr := 0
    left := 0
    newf := q.newf.setSpan 0 257
      (fun i => BitVec.ofNat 16 (if i < total % 257 then total / 257 + 1 else total / 257)) }

/-- The model QS_INIT builds before `QsReset` (R220). -/
def qsFresh (q : Qs) (lg : Nat) (target : Word) : Qs :=
  { q with
    lgTotf := BitVec.ofNat 4 lg
    shift := BitVec.ofNat 4 (lg - 7)
    target := target.setWidth 16
    cf := (q.cf.set 0 0).set 257 (BitVec.ofNat 16 (2 ^ lg))
    search := q.search.set 128 256 }

/-- The binary search of QS_GETSYM between `lo` and `hi` (R223). 17 halvings end every search, since `hi - lo` is at most 2^16. -/
def searchFrom (cf : Store 16) (lt fuel lo hi : Nat) : Nat :=
  match fuel with
  | 0 => lo
  | fuel + 1 =>
    if lo + 1 < hi then
      let mid := (lo + hi) / 2
      if lt < (cf.get mid).toNat then searchFrom cf lt fuel lo mid else searchFrom cf lt fuel mid hi
    else lo

/-- The body of QS_GETSYM (R223): the symbol whose interval holds `lt`. -/
def qsSymbol (q : Qs) (lt : Nat) : Nat :=
  let b := lt >>> q.shift.toNat
  searchFrom q.cf lt 17 (q.search.get b).toNat ((q.search.get (b + 1)).toNat + 1)

/-- `CF[sym+1] - CF[sym]` (R224). -/
def qsFreq (q : Qs) (sym : Nat) : BitVec 16 := q.cf.get (sym + 1) - q.cf.get sym

/-- The body of QS_UPDATE (R225). -/
def qsCount (q : Qs) (sym : Nat) : Qs :=
  let q := if q.left = 0 then qsDoRescale q else q
  { q with left := q.left - 1, newf := q.newf.set sym (q.newf.get sym + q.incr) }

/-- QS_INIT lg (R220). -/
def execQsInit (lg : BitVec 4) (s : State) : Host.Outcome State Fault Refusal :=
  runCommand s ⟨3, 0⟩
    (do require (decide (9 ≤ lg.toNat)) .badOperand (immWord lg)
        require (decide ((s.arg 0).toNat ≠ 0) && decide ((s.arg 0).toNat ≤ 65535)) .badOperand (s.arg 0))
    (.ok { s with qs := { qsRestart (qsFresh s.qs lg.toNat (s.arg 0)) with valid := true } })
    s

/-- QS_RESET (R221). -/
def execQsReset (s : State) : Host.Outcome State Fault Refusal :=
  runCommand s ⟨3, 1⟩ (s.requireReady s.qs.valid) (.ok { s with qs := qsRestart s.qs }) s

/-- QS_GETSYM (R223). -/
def execQsGetsym (s : State) : Host.Outcome State Fault Refusal :=
  runCommand s ⟨3, 2⟩
    (do s.requireReady s.qs.valid
        require (decide ((s.arg 0).toNat < (s.qs.cf.get 257).toNat)) .badOperand (s.arg 0))
    (.ok (s.setResult (wordOf (qsSymbol s.qs (s.arg 0).toNat))))
    s

/-- `if ARG0 > 256: raise BadOperand(ARG0)` (R224, R225). -/
def State.checkSymbol (s : State) : Run Unit := require (decide ((s.arg 0).toNat ≤ 256)) .badOperand (s.arg 0)

/-- QS_GETFREQ (R224): RESULT the frequency, RESULT1 the cumulative frequency below. -/
def execQsGetfreq (s : State) : Host.Outcome State Fault Refusal :=
  runCommand s ⟨3, 3⟩
    (do s.requireReady s.qs.valid
        s.checkSymbol)
    (.ok ((s.setResult ((qsFreq s.qs (s.arg 0).toNat).setWidth 32)).setResult1
      ((s.qs.cf.get (s.arg 0).toNat).setWidth 32)))
    s

/-- QS_UPDATE (R225). -/
def execQsUpdate (s : State) : Host.Outcome State Fault Refusal :=
  runCommand s ⟨3, 4⟩
    (do s.requireReady s.qs.valid
        s.checkSymbol)
    (.ok { s with qs := qsCount s.qs (s.arg 0).toNat })
    s

end Sys2Proof.Machine
end

