-- ==== Sys2Proof/Machine/RangeCoder.lean ====
section
/-! DEFINITION. Unit 2, RC, the range decoder (41_range_coder.md R200 to R208, R230). -/

namespace Sys2Proof.Machine

/-- The parameters of the range coder a command reads (R202, R203): RC_BOTTOM, RC_NORM_LE, X = RC_EXTRA_BITS. -/
structure RcCfg where
  bottom : Nat
  normLe : Bool
  x : Nat
  deriving DecidableEq, Repr

/-- The machine's range-coder parameters. -/
def State.rcCfg (s : State) : RcCfg := ⟨s.cfg.rcBottom, s.cfg.rcNormLe, s.cfg.rcExtraBits⟩

/-- `RcNeed()` (R202). -/
def rcNeed (g : RcCfg) (rc : Rc) : Bool :=
  if g.normLe then decide (rc.range.toNat ≤ g.bottom) else decide (rc.range.toNat < g.bottom)

/-- One iteration of `RcNormalize()` after its `SrcByte()` gave `b` (R203). -/
def rcShift (g : RcCfg) (rc : Rc) (b : Byte) : Rc :=
  { rc with
    low := (rc.low <<< 8 ||| ((rc.buffer <<< g.x).setWidth 32)) ||| ((b >>> (8 - g.x)).setWidth 32)
    buffer := b
    range := rc.range <<< 8 }

/-- `RcNormalize()` (R203), counting the bytes consumed. Every iteration consumes a source byte or raises, so `fuel` greater than
SRC_LEN is never used up. -/
def rcNormalizeFrom (g : RcCfg) (e : Env) (fuel n : Nat) (rc : Rc) (io : Io) : Run (Nat × Rc × Io) :=
  match fuel with
  | 0 => raise .truncatedInput (wordOf io.pos)
  | fuel + 1 =>
    if rcNeed g rc then
      match srcByte e io with
      | .error r => .error r
      | .ok (b, io) => rcNormalizeFrom g e fuel (n + 1) (rcShift g rc b) io
    else .ok (n, rc, io)

/-- `RcNormalize()` (R203). -/
def rcNormalize (g : RcCfg) (e : Env) (rc : Rc) (io : Io) : Run (Nat × Rc × Io) :=
  rcNormalizeFrom g e (e.srcLen + 1) 0 rc io

/-- `RcStart()` (R204). -/
def rcStartup (g : RcCfg) (e : Env) (io : Io) : Run (Byte × Rc × Io) := do
  let (c, io) ← srcByte e io
  let (b, io) ← srcByte e io
  return (c, ⟨(b >>> (8 - g.x)).setWidth 32, BitVec.ofNat 32 (2 ^ g.x), 0, b, .decoding⟩, io)

/-- The body of RC_CULSHIFT from `RcNormalize` on (R207): the target and the state with RC_HELP set. -/
def rcCulshift (g : RcCfg) (e : Env) (shift : Nat) (rc : Rc) (io : Io) : Run (Nat × Rc × Io) := do
  let (_, rc, io) ← rcNormalize g e rc io
  let help := rc.range >>> shift
  let t := rc.low.toNat / help.toNat
  return (if t >>> shift ≠ 0 then 2 ^ shift - 1 else t, { rc with help := help }, io)

/-- The body of RC_UPDATE (R208): products and differences modulo 2^32. -/
def rcNarrow (rc : Rc) (sy lt tot : Nat) : Rc :=
  let tmp := rc.help * BitVec.ofNat 32 lt
  { rc with
    low := rc.low - tmp
    range := if lt + sy < tot then rc.help * BitVec.ofNat 32 sy else rc.range - tmp }

/-- `require RC_STATE = Decoding`, else SequenceError (R201). -/
def State.requireDecoding (s : State) : Run Unit := s.requireReady (s.rc.st == .decoding)

/-- What an execution error of RC_START, RC_NORMALIZE or RC_CULSHIFT leaves (R511.2, R201). -/
def State.afterRcError (s : State) : State := s.loseSrcPos.loseRc.endDraws

/-- RC_START (R205). -/
def execRcStart (s : State) : Host.Outcome State Fault Refusal :=
  runCommand s ⟨2, 0⟩ s.checkSrc
    (do let (c, rc, io) ← rcStartup s.rcCfg s.env s.io
        return ({ s with rc := rc }.withPos io).setResult (c.setWidth 32))
    s.afterRcError

/-- RC_CULSHIFT shift (R207). -/
def execRcCulshift (shift : BitVec 5) (s : State) : Host.Outcome State Fault Refusal :=
  runCommand s ⟨2, 1⟩
    (do s.requireDecoding
        require (decide (1 ≤ shift.toNat) && decide (shift.toNat ≤ 16)) .badOperand (immWord shift)
        s.checkSrc)
    (do let (t, rc, io) ← rcCulshift s.rcCfg s.env shift.toNat s.rc s.io
        return ({ s with rc := rc }.withPos io).setResult (wordOf t))
    s.afterRcError

/-- RC_UPDATE (R208). -/
def execRcUpdate (s : State) : Host.Outcome State Fault Refusal :=
  let sy := (s.arg 0).toNat
  let lt := (s.arg 1).toNat
  let tot := (s.arg 2).toNat
  runCommand s ⟨2, 2⟩
    (do s.requireDecoding
        require (decide (sy ≠ 0) && decide (tot ≤ 65536) && decide (lt + sy ≤ tot)) .badOperand (s.arg 0))
    (.ok { s with rc := rcNarrow s.rc sy lt tot })
    s

/-- RC_NORMALIZE (R206): RESULT is the number of bytes consumed. -/
def execRcNormalize (s : State) : Host.Outcome State Fault Refusal :=
  runCommand s ⟨2, 3⟩
    (do s.requireDecoding
        s.checkSrc)
    (do let (n, rc, io) ← rcNormalize s.rcCfg s.env s.rc s.io
        return ({ s with rc := rc }.withPos io).setResult (wordOf n))
    s.afterRcError

/-- What the loop of RC_DECODE carries (R230). -/
structure RcLoop where
  rc : Rc
  qs : Qs
  io : Io
  deriving DecidableEq, Repr

/-- The decode loop of RC_DECODE (R230). Every iteration but the last writes one destination byte or raises, so `fuel` greater
than the room left is never used up; the iteration after the last write ends at the terminal symbol or raises. -/
def rcDecodeFrom (g : RcCfg) (e : Env) (fuel : Nat) (l : RcLoop) : Run RcLoop :=
  match fuel with
  | 0 => raise .destinationFull (wordOf l.io.out)
  | fuel + 1 =>
    match rcCulshift g e l.qs.lgTotf.toNat l.rc l.io with
    | .error r => .error r
    | .ok (t, rc, io) =>
      let sym := qsSymbol l.qs t
      let rc := rcNarrow rc (qsFreq l.qs sym).toNat (l.qs.cf.get sym).toNat (2 ^ l.qs.lgTotf.toNat)
      if sym = 256 then .ok { l with rc := { rc with st := .done }, io := io }
      else if dstFull e io then raise .destinationFull (wordOf io.out)
      else rcDecodeFrom g e fuel ⟨rc, qsCount l.qs sym, dstPut e io (BitVec.ofNat 8 sym)⟩

/-- The body of RC_DECODE after its checks (R230); with no room it reads nothing (20_memory.md R110). -/
def rcDecodeBody (s : State) : Run State :=
  if s.dst.pos = s.dst.len then .ok (s.setResult 0)
  else do
    let (c, rc, io) ← rcStartup s.rcCfg s.env s.io
    let l ← rcDecodeFrom s.rcCfg s.env (s.dst.len.toNat - s.dst.pos.toNat + 1) ⟨rc, qsRestart s.qs, io⟩
    return (({ s with rc := l.rc, qs := l.qs }.withIo l.io).setResult (wordOf (l.io.out - s.dst.pos.toNat))).setResult1
      (c.setWidth 32)

/-- RC_DECODE (R230). -/
def execRcDecode (s : State) : Host.Outcome State Fault Refusal :=
  runCommand s ⟨2, 4⟩
    (do s.requireReady s.qs.valid
        s.checkSrc
        s.checkDst)
    (rcDecodeBody s.markOverlap)
    s.markOverlap.loseSrcPos.loseDst.loseRc.loseQs.endDraws

end Sys2Proof.Machine
end

