-- ==== Sys2Proof/Machine/Sys.lean ====
section
/-! DEFINITION. Unit 0, SYS (40_sys_bitreader.md R160, R161). -/

namespace Sys2Proof.Machine

/-- NOP (R160): nothing but the completion. -/
def execNop (s : State) : Host.Outcome State Fault Refusal :=
  runCommand s ⟨0, 0⟩ (.ok ()) (.ok s) s

/-- The state SRST_UNIT leaves (R161): one unit, every unit for 15, none for 0. -/
def srstBody (s : State) (u : Nat) : State :=
  if u = 15 then s.allUnitsReset.endDraws else (s.unitReset u).endDraws

/-- SRST_UNIT u (R161). -/
def execSrstUnit (u : BitVec 4) (s : State) : Host.Outcome State Fault Refusal :=
  runCommand s ⟨0, 1⟩
    (require (decide (u.toNat ≤ 9) || decide (u.toNat = 15)) .badOperand (immWord u))
    (.ok (srstBody s u.toNat)) s

end Sys2Proof.Machine
end

