-- ==== Sys2Proof/Machine/Float.lean ====
section
/-! DEFINITION. Binary32 arithmetic for unit XF (47_transform.md R441): addition, subtraction and multiplication rounded to
nearest with ties to even, conversion from an integer, and rounding to a 16-bit sample (R470). A finite magnitude is held exactly,
as a number of quanta of 2^-149. -/

namespace Sys2Proof.Machine

/-- The biased exponent of a pattern. -/
def fExp (x : F32) : Nat := (x.extractLsb' 23 8).toNat

/-- The fraction of a pattern. -/
def fFrac (x : F32) : Nat := (x.extractLsb' 0 23).toNat

/-- `x` is neither infinite nor NaN. -/
def fFinite (x : F32) : Bool := fExp x != 255

/-- `x` is NaN. -/
def fNaN (x : F32) : Bool := fExp x == 255 && fFrac x != 0

/-- `x` is `+0.0` or `-0.0`. -/
def fZero (x : F32) : Bool := fExp x == 0 && fFrac x == 0

/-- `|x| * 2^149` of a finite `x`, exactly. -/
def fMag (x : F32) : Nat := if fExp x = 0 then fFrac x else (2 ^ 23 + fFrac x) * 2 ^ (fExp x - 1)

/-- `x * 2^149` of a finite `x`, exactly. -/
def fInt (x : F32) : Int := if x.msb then - (fMag x : Int) else fMag x

/-- `x` with its sign turned. -/
def fNeg (x : F32) : F32 := x ^^^ 0x80000000

/-- The signed infinity. -/
def fInf (neg : Bool) : F32 := if neg then 0xFF800000 else 0x7F800000

/-- The NaN operation `op` answers for its operands; the spec gives no payload (R441; log 10). -/
def fNaNOf (op : Nat) (a b : F32) : F32 :=
  if fNaN (Config.nanRaw op a b) then Config.nanRaw op a b else 0x7FC00000

/-- The pattern of the binary32 value nearest to `m * 2^-(149 + u)`, ties to even, without its sign: `m` is shifted down to at most
24 significant bits and to quanta of 2^-149, and the quotient is rounded; a carry out of the fraction steps the exponent. -/
def roundBits (m u : Nat) : Nat :=
  let r := max (m.log2 - 23) u
  let q := m / 2 ^ r
  let rest := m % 2 ^ r
  let up := decide (2 ^ r < 2 * rest) || (decide (2 * rest = 2 ^ r) && decide (q % 2 = 1))
  min (q + (if up then 1 else 0) + (r - u) * 2 ^ 23) 0x7F800000

/-- The rounded value with its sign (R441). -/
def fRound (neg : Bool) (m u : Nat) : F32 :=
  BitVec.ofNat 32 (roundBits m u) ||| (if neg then 0x80000000 else 0)

/-- The rounded sum of two finite values: an exact zero is `-0.0` only when both operands are negative. -/
def fAddFinite (a b : F32) : F32 :=
  let v := fInt a + fInt b
  if v = 0 then fRound (a.msb && b.msb) 0 0 else fRound (decide (v < 0)) v.natAbs 0

/-- The sum of two operands that are not NaN; `op`, `x`, `y` name the operation in the NaN it may answer. -/
def fAddAs (op : Nat) (x y a b : F32) : F32 :=
  if fFinite a then
    if fFinite b then fAddFinite a b else b
  else if fFinite b then a
  else if a.msb = b.msb then a
  else fNaNOf op x y

/-- `a ⊕ b` (R441). -/
def fAdd (a b : F32) : F32 := if fNaN a || fNaN b then fNaNOf 0 a b else fAddAs 0 a b a b

/-- `a ⊖ b` (R441). -/
def fSub (a b : F32) : F32 := if fNaN a || fNaN b then fNaNOf 1 a b else fAddAs 1 a b a (fNeg b)

/-- `a ⊗ b` (R441). -/
def fMul (a b : F32) : F32 :=
  let neg := a.msb != b.msb
  if fNaN a || fNaN b then fNaNOf 2 a b
  else if fFinite a && fFinite b then fRound neg (fMag a * fMag b) 149
  else if fZero a || fZero b then fNaNOf 2 a b
  else fInf neg

/-- `cvt(q)` (R441). -/
def fCvt (q : BitVec 32) : F32 := fRound q.msb (q.toInt.natAbs * 2 ^ 149) 0

/-- `Round16(v)` of a `v` that is not NaN (R470): half away from zero, clamped. -/
def round16 (v : F32) : BitVec 16 :=
  let r := if fFinite v then (fMag v + 2 ^ 148) / 2 ^ 149 else 2 ^ 32
  if v.msb then BitVec.ofInt 16 (- (min r 32768 : Nat)) else BitVec.ofNat 16 (min r 32767)

/-! ## The exact inverse DCT, in fixed point (R465; log 9)

The fixed point has so many fraction bits that every comparison below comes out as it does over the reals: a number that is
compared with 0 is zero or, as an algebraic integer of degree `2^degree`, too large for the cosines' errors to turn its sign. -/

/-- How many fraction bits the cosines of a degree have (log 9). -/
def cosBits (degree : Nat) : Nat := 512 * 2 ^ degree

/-- `cos(pi * m / 2^e)` with `bits` fraction bits, by the half-angle formula from the exact values at `e = 0`. -/
def cosFix (bits e m : Nat) : Int :=
  match e with
  | 0 => if m % 2 = 0 then 2 ^ bits else - 2 ^ bits
  | d + 1 =>
    let c : Nat := Nat.sqrt ((2 ^ bits + cosFix bits d m).toNat * 2 ^ (bits - 1))
    let p := m % 2 ^ (d + 2)
    if p ≤ 2 ^ d ∨ 3 * 2 ^ d ≤ p then (c : Int) else - (c : Int)

/-- The factor of `X[k]` in `x[n]` (R465), in fixed point: `cos(pi/4)` for the DC term. -/
def dctFactor (degree k n : Nat) : Int :=
  if k = 0 then cosFix (cosBits degree) 2 1 else cosFix (cosBits degree) (degree + 1) ((2 * n + 1) * k)

/-- `f` of each of the given coefficients with its index, added up. -/
def sumOver (f : Nat → F32 → Int) (k : Nat) (xs : List F32) : Int :=
  match xs with
  | [] => 0
  | x :: rest => f k x + sumOver f (k + 1) rest

/-- `x[n]` (R465), in quanta of 2^-149 and `cosBits` fraction bits. -/
def dctExact (degree : Nat) (xs : List F32) (n : Nat) : Int :=
  sumOver (fun k x => fInt x * dctFactor degree k n) 0 xs

/-- `S(n)` (R441), in the same units. -/
def dctSize (degree : Nat) (xs : List F32) (n : Nat) : Nat :=
  (sumOver (fun k x => ((fMag x * (dctFactor degree k n).natAbs : Nat) : Int)) 0 xs).toNat

/-- P-XF.2 applies (R441): every input finite and every `S(n)` below 2^120. -/
def dctInRange (degree : Nat) (xs : List F32) : Bool :=
  xs.all fFinite
    && (List.range (2 ^ degree)).all (fun n => decide (dctSize degree xs n < 2 ^ (120 + 149 + cosBits degree)))

/-- `|y - x[n]| * 2^16`, in the same units. -/
def dctError (degree : Nat) (xs : List F32) (n : Nat) (y : F32) : Nat :=
  2 ^ 16 * (fInt y * 2 ^ cosBits degree - dctExact degree xs n).natAbs

/-- `y` is an output P-XF.2 admits for entry `n` (R441): finite, and within `2^-16 * S(n)` of `x[n]`. -/
def dctMeets (degree : Nat) (xs : List F32) (n : Nat) (y : F32) : Bool :=
  fFinite y && decide (dctError degree xs n y ≤ dctSize degree xs n)

/-- `y` is finite and within `2^-16 * S(n)` and one quantum of 2^-149 of `x[n]` (log 9). -/
def dctClose (degree : Nat) (xs : List F32) (n : Nat) (y : F32) : Bool :=
  fFinite y && decide (dctError degree xs n y ≤ dctSize degree xs n + 2 ^ (16 + cosBits degree))

/-- The binary32 value nearest to `x[n]`: it meets P-XF.2 wherever a binary32 value does. -/
def dctNearest (degree : Nat) (xs : List F32) (n : Nat) : F32 :=
  let v := dctExact degree xs n
  fRound (decide (v < 0)) v.natAbs (cosBits degree)

/-- Entry `n` of `IdctFP(degree, X)` where P-XF.2 applies: the OPEN value if P-XF.2 admits it, else the nearest one. For an `x[n]`
so near 0 that no binary32 value meets P-XF.2, the OPEN value need only be close (log 9). -/
def dctEntry (degree : Nat) (xs : List F32) (n : Nat) : F32 :=
  let y := Config.idctRaw degree xs n
  let z := dctNearest degree xs n
  if dctMeets degree xs n y || (dctClose degree xs n y && !dctMeets degree xs n z) then y else z

end Sys2Proof.Machine
end

