-- ==== Sys2Proof/Machine/Transform.lean ====
section
/-! DEFINITION. Unit 9, XF, the block-transform restore (47_transform.md R440 to R477). Each stage is a body over the state, which
its command and XF_RESTORE share. -/

namespace Sys2Proof.Machine

/-! ## Checks -/

/-- `N = 2^degree` (R440). -/
def blockSize (degree : BitVec 4) : Nat := 2 ^ degree.toNat

/-- `check degree` (R440). -/
def checkDegree (degree : BitVec 4) : Run Unit := require (degreeOk degree) .badOperand (immWord degree)

/-- `if st = 0: raise BadOperand(0)` (R470, R475). -/
def checkStride (stride : Word) : Run Unit := require (stride != 0) .badOperand 0

/-- The address of sample `i`: `addr + st * i` in integers, `st` signed (R470). -/
def sampleAt (addr stride : Word) (i : Nat) : Int := (addr.toNat : Int) + stride.toInt * i

/-- `if lo < 0 or hi > BUF_SIZE: raise OutOfBounds(addr)` (R470). -/
def State.checkSamples (s : State) (addr stride : Word) (n : Nat) : Run Unit :=
  let last := sampleAt addr stride (n - 1)
  require (decide (0 ≤ min (addr.toNat : Int) last) && decide (max (addr.toNat : Int) last + 2 ≤ s.cfg.bufSize))
    .outOfBounds addr

/-- The lowest index from `i` on, of `n` entries, that holds NaN (R470). -/
def firstNaN (xa : Store 32) (n i : Nat) : Option Nat :=
  match n with
  | 0 => none
  | n + 1 => if fNaN (xa.get i) then some i else firstNaN xa n (i + 1)

/-- `for i in 0..N-1: if XA[i] is NaN: raise FormatError(i)` (R470). -/
def State.checkNaN (s : State) (n : Nat) : Run Unit :=
  match firstNaN s.xf.xa n 0 with
  | none => .ok ()
  | some i => raise .formatError (wordOf i)

/-! ## Stages -/

/-- The 32-bit little-endian value at an address (R442). -/
def wordAt (buf : Store 8) (a : Nat) : BitVec 32 := BitVec.ofNat 32 (leNat (memRead buf a 4))

/-- The body of XF_LOADQ (R445). -/
def State.xfLoadqBody (s : State) (n : Nat) (addr : Word) : State :=
  { s with xf := { s.xf with xq := s.xf.xq.setSpan 0 n (fun i => wordAt s.buf (addr.toNat + 4 * i)) } }

/-- The body of XF_LOADF (R446). -/
def State.xfLoadfBody (s : State) (n : Nat) (addr : Word) : State :=
  { s with xf := { s.xf with xa := s.xf.xa.setSpan 0 n (fun i => wordAt s.buf (addr.toNat + 4 * i)) } }

/-- `for i in 0..N-1` of XF_STOREF (R447): `n` further values from entry `i` on. -/
def storeFloats (taint : Option Nat) (xa : Store 32) (addr n i : Nat) (buf : Store 8) : Store 8 :=
  match n with
  | 0 => buf
  | n + 1 => storeFloats taint xa addr n (i + 1) (memWriteLE taint buf (addr + 4 * i) 4 (xa.get i).toNat)

/-- Entry `i` of `XF_IQ_WEIGHTS(degree, wcode, coef)`, a finite value (R450; log 8). -/
def xfWeight (degree : Nat) (wcode coef : Word) (i : Nat) : F32 :=
  if fFinite (Config.xfWeightRaw degree wcode coef i) then Config.xfWeightRaw degree wcode coef i else 0

/-- The body of XF_IQUANT (R450). -/
def State.xfIquantBody (s : State) (degree : Nat) (wcode coef : Word) : State :=
  { s with xf := { s.xf with
      xw := s.xf.xw.setSpan 0 (2 ^ degree) (xfWeight degree wcode coef)
      xa := s.xf.xa.setSpan 0 (2 ^ degree) (fun i => fMul (fCvt (s.xf.xq.get i)) (xfWeight degree wcode coef i)) } }

/-- The side conditions of a rotation (R455): odd distinct indexes below `N`, `c` and `s` finite with `c*c + s*s` within 2^-20 of
1, in quanta of 2^-298. -/
def rotationOk (n : Nat) (r : Config.Rotation) : Bool :=
  r.i != r.j && r.i % 2 == 1 && r.j % 2 == 1 && decide (r.i < n) && decide (r.j < n) && fFinite r.c && fFinite r.s
    && decide (((fMag r.c * fMag r.c + fMag r.s * fMag r.s : Nat) - (2 ^ 298 : Nat) : Int).natAbs ≤ 2 ^ 278)

/-- `XF_GIVENS(degree)` (R455; log 7). -/
def xfRotations (degree : Nat) : List Config.Rotation := (Config.xfGivensRaw degree).filter (rotationOk (2 ^ degree))

/-- One rotation of XA (R455). -/
def rotate (xa : Store 32) (r : Config.Rotation) : Store 32 :=
  let a := xa.get r.i
  let b := xa.get r.j
  (xa.set r.i (fSub (fMul r.c a) (fMul r.s b))).set r.j (fAdd (fMul r.s a) (fMul r.c b))

/-- `XT[0..N-1] <- UNSPECIFIED` (R455, R465). -/
def State.loseXt (s : State) (n : Nat) : State :=
  { s with xf := { s.xf with xt := s.xf.xt.lose (s.draws + 4) n } }.endDraws

/-- The body of XF_GIVENS (R455). -/
def State.xfGivensBody (s : State) (degree : Nat) : State :=
  { s with xf := { s.xf with xa := (xfRotations degree).foldl rotate s.xf.xa } }.loseXt (2 ^ degree)

/-- Entry `i` after XF_IPLOT (R460). -/
def iplotEntry (xa : Store 32) (i : Nat) : F32 :=
  if i % 2 = 0 then fAdd (xa.get i) (xa.get (i + 1)) else fSub (xa.get (i - 1)) (xa.get i)

/-- The body of XF_IPLOT (R460). -/
def State.xfIplotBody (s : State) (n : Nat) : State :=
  { s with xf := { s.xf with xa := s.xf.xa.setSpan 0 n (iplotEntry s.xf.xa) } }

/-- Entry `i` after XF_ILOT (R461): the carry's even entry with the current block's odd entry. -/
def ilotEntry (xa xc : Store 32) (i : Nat) : F32 :=
  if i % 2 = 0 then fAdd (xc.get i) (xa.get (i + 1)) else fSub (xc.get (i - 1)) (xa.get i)

/-- The body of XF_ILOT (R461). -/
def State.xfIlotBody (s : State) (n : Nat) : State :=
  { s with xf := { s.xf with
      xa := s.xf.xa.setSpan 0 n (ilotEntry s.xf.xa s.xf.xc)
      xc := s.xf.xc.setSpan 0 n s.xf.xa.get } }

/-- `XA[0..N-1]` as a list. -/
def State.xaBlock (s : State) (n : Nat) : List F32 := (List.range n).map s.xf.xa.get

/-- Entry `i` of `IdctFP(degree, X)` (R441), `inRange` saying whether P-XF.2 applies; where it does not, it is UNSPECIFIED. -/
def State.idctEntry (s : State) (degree : Nat) (xs : List F32) (inRange : Bool) (i : Nat) : F32 :=
  if inRange then dctEntry degree xs i else Config.freeBits 32 (s.draws + 6) i

/-- The body of XF_IDCT (R465). -/
def State.xfIdctBody (s : State) (degree : Nat) : State :=
  let xs := s.xaBlock (2 ^ degree)
  let inRange := dctInRange degree xs
  { s with xf := { s.xf with
      xa := s.xf.xa.setSpan 0 (2 ^ degree) (s.idctEntry degree xs inRange) } }.loseXt (2 ^ degree)

/-- `for i in 0..N-1: MemWrite(addr + st * i, 2, toLE_16(Round16(XA[i])))` (R470): `n` further samples from entry `i` on. -/
def storeSamples (taint : Option Nat) (xa : Store 32) (addr stride : Word) (n i : Nat) (buf : Store 8) : Store 8 :=
  match n with
  | 0 => buf
  | n + 1 =>
    storeSamples taint xa addr stride n (i + 1)
      (memWriteLE taint buf (sampleAt addr stride i).toNat 2 (round16 (xa.get i)).toNat)

/-- The body of XF_STORE16 after its checks (R470). -/
def State.xfStore16Body (s : State) (n : Nat) (addr stride : Word) : State :=
  { s with buf := storeSamples s.taint s.xf.xa addr stride n 0 s.buf }

/-- The stages of XF_RESTORE before the store (R475, R476). -/
def State.xfRestoreBlock (s : State) (degree : BitVec 4) : State :=
  (((((s.xfLoadqBody (blockSize degree) (s.arg 0)).xfIquantBody degree.toNat (s.arg 1) (s.arg 2)).xfGivensBody
    degree.toNat).xfIplotBody (blockSize degree)).xfIlotBody (blockSize degree)).xfIdctBody degree.toNat

/-! ## Commands -/

/-- XF_LOADQ degree (R445). -/
def execXfLoadq (degree : BitVec 4) (s : State) : Host.Outcome State Fault Refusal :=
  runCommand s ⟨9, 0⟩
    (do checkDegree degree
        s.checkDirect (s.arg 0) (4 * blockSize degree))
    (.ok (s.xfLoadqBody (blockSize degree) (s.arg 0)))
    s

/-- XF_IQUANT degree (R450). -/
def execXfIquant (degree : BitVec 4) (s : State) : Host.Outcome State Fault Refusal :=
  runCommand s ⟨9, 1⟩ (checkDegree degree) (.ok (s.xfIquantBody degree.toNat (s.arg 1) (s.arg 2))) s

/-- XF_GIVENS degree (R455). -/
def execXfGivens (degree : BitVec 4) (s : State) : Host.Outcome State Fault Refusal :=
  runCommand s ⟨9, 2⟩ (checkDegree degree) (.ok (s.xfGivensBody degree.toNat)) s

/-- XF_IPLOT degree (R460). -/
def execXfIplot (degree : BitVec 4) (s : State) : Host.Outcome State Fault Refusal :=
  runCommand s ⟨9, 3⟩ (checkDegree degree) (.ok (s.xfIplotBody (blockSize degree))) s

/-- XF_ILOT degree (R461). -/
def execXfIlot (degree : BitVec 4) (s : State) : Host.Outcome State Fault Refusal :=
  runCommand s ⟨9, 4⟩ (checkDegree degree) (.ok (s.xfIlotBody (blockSize degree))) s

/-- XF_IDCT degree (R465). -/
def execXfIdct (degree : BitVec 4) (s : State) : Host.Outcome State Fault Refusal :=
  runCommand s ⟨9, 5⟩ (checkDegree degree) (.ok (s.xfIdctBody degree.toNat)) s

/-- XF_STORE16 degree (R470): a NaN is found before any byte is written, so it is a pre-check (R507, R511.1). -/
def execXfStore16 (degree : BitVec 4) (s : State) : Host.Outcome State Fault Refusal :=
  runCommand s ⟨9, 6⟩
    (do checkDegree degree
        checkStride (s.arg 1)
        s.checkSamples (s.arg 0) (s.arg 1) (blockSize degree)
        s.checkNaN (blockSize degree))
    (.ok (s.xfStore16Body (blockSize degree) (s.arg 0) (s.arg 1)))
    s

/-- XF_CLRCARRY (R462). -/
def execXfClrcarry (s : State) : Host.Outcome State Fault Refusal :=
  runCommand s ⟨9, 7⟩ (.ok ()) (.ok { s with xf := { s.xf with xc := blankStore 0 } }) s

/-- XF_LOADF degree (R446). -/
def execXfLoadf (degree : BitVec 4) (s : State) : Host.Outcome State Fault Refusal :=
  runCommand s ⟨9, 8⟩
    (do checkDegree degree
        s.checkDirect (s.arg 0) (4 * blockSize degree))
    (.ok (s.xfLoadfBody (blockSize degree) (s.arg 0)))
    s

/-- XF_STOREF degree (R447). -/
def execXfStoref (degree : BitVec 4) (s : State) : Host.Outcome State Fault Refusal :=
  runCommand s ⟨9, 9⟩
    (do checkDegree degree
        s.checkDirect (s.arg 0) (4 * blockSize degree))
    (.ok { s with buf := storeFloats s.taint s.xf.xa (s.arg 0).toNat (blockSize degree) 0 s.buf })
    s

/-- XF_RESTORE degree (R475): a NaN at the store stage is an execution error that writes no BUF byte; the draw counter is then past
the events of XF_GIVENS and XF_IDCT, where the stages left it. -/
def execXfRestore (degree : BitVec 4) (s : State) : Host.Outcome State Fault Refusal :=
  runCommand s ⟨9, 10⟩
    (do checkDegree degree
        checkStride (s.arg 4)
        s.checkDirect (s.arg 0) (4 * blockSize degree)
        s.checkSamples (s.arg 3) (s.arg 4) (blockSize degree))
    (do let t := s.xfRestoreBlock degree
        t.checkNaN (blockSize degree)
        return t.xfStore16Body (blockSize degree) (s.arg 3) (s.arg 4))
    (s.loseXf (blockSize degree)).endDraws.endDraws

end Sys2Proof.Machine
end

