-- ==== Sys2Proof/Machine/Dispatch.lean ====
section
/-! DEFINITION. The dispatch: one arm per command of the opcode map (30_encoding.md R135). -/

namespace Sys2Proof.Machine

def exec (i : Instr) (s : State) : Host.Outcome State Fault Refusal :=
  match i with
  | .nop => Sys2Proof.Machine.execNop s
  | .srstUnit u => Sys2Proof.Machine.execSrstUnit u s
  | .brInit lsb => Sys2Proof.Machine.execBrInit lsb s
  | .brGetbit => Sys2Proof.Machine.execBrGetbit s
  | .brGetbits n => Sys2Proof.Machine.execBrGetbits n s
  | .brPeekbits n => Sys2Proof.Machine.execBrPeekbits n s
  | .brAlign => Sys2Proof.Machine.execBrAlign s
  | .rcStart => Sys2Proof.Machine.execRcStart s
  | .rcCulshift shift => Sys2Proof.Machine.execRcCulshift shift s
  | .rcUpdate => Sys2Proof.Machine.execRcUpdate s
  | .rcNormalize => Sys2Proof.Machine.execRcNormalize s
  | .rcDecode => Sys2Proof.Machine.execRcDecode s
  | .qsInit lg => Sys2Proof.Machine.execQsInit lg s
  | .qsReset => Sys2Proof.Machine.execQsReset s
  | .qsGetsym => Sys2Proof.Machine.execQsGetsym s
  | .qsGetfreq => Sys2Proof.Machine.execQsGetfreq s
  | .qsUpdate => Sys2Proof.Machine.execQsUpdate s
  | .hufInit order1 => Sys2Proof.Machine.execHufInit order1 s
  | .hufGetcode => Sys2Proof.Machine.execHufGetcode s
  | .hufSetctx => Sys2Proof.Machine.execHufSetctx s
  | .golGamma => Sys2Proof.Machine.execGolGamma s
  | .golRunlen => Sys2Proof.Machine.execGolRunlen s
  | .golValue => Sys2Proof.Machine.execGolValue s
  | .golResetctx => Sys2Proof.Machine.execGolResetctx s
  | .golDecode => Sys2Proof.Machine.execGolDecode s
  | .lzInit => Sys2Proof.Machine.execLzInit s
  | .lzDecompress variant => Sys2Proof.Machine.execLzDecompress variant s
  | .camSetkey => Sys2Proof.Machine.execCamSetkey s
  | .camDecblk => Sys2Proof.Machine.execCamDecblk s
  | .camDecrange => Sys2Proof.Machine.execCamDecrange s
  | .nekoSetkey64 => Sys2Proof.Machine.execNekoSetkey64 s
  | .nekoSethash => Sys2Proof.Machine.execNekoSethash s
  | .nekoDecrypt => Sys2Proof.Machine.execNekoDecrypt s
  | .xfLoadq degree => Sys2Proof.Machine.execXfLoadq degree s
  | .xfIquant degree => Sys2Proof.Machine.execXfIquant degree s
  | .xfGivens degree => Sys2Proof.Machine.execXfGivens degree s
  | .xfIplot degree => Sys2Proof.Machine.execXfIplot degree s
  | .xfIlot degree => Sys2Proof.Machine.execXfIlot degree s
  | .xfIdct degree => Sys2Proof.Machine.execXfIdct degree s
  | .xfStore16 degree => Sys2Proof.Machine.execXfStore16 degree s
  | .xfClrcarry => Sys2Proof.Machine.execXfClrcarry s
  | .xfLoadf degree => Sys2Proof.Machine.execXfLoadf degree s
  | .xfStoref degree => Sys2Proof.Machine.execXfStoref degree s
  | .xfRestore degree => Sys2Proof.Machine.execXfRestore degree s

end Sys2Proof.Machine
end

