-- ==== Sys2Proof/Machine/Engine.lean ====
section
/-! DEFINITION. The engine step (70_reset_and_hazards.md R540): the command word in CMD run through its whole rule. -/

namespace Sys2Proof.Machine

/-- An enabled engine step (R540, R556): the word in CMD is decoded and run; a word that is no command aborts with
IllegalCommand(cw), before every other check (30_encoding.md R134, 60_exceptions.md R502). -/
def engineStep (s : State) : Host.Outcome State Fault Refusal :=
  match decode s.cmd with
  | .ok i => exec i s
  | .error _ => .next (s.abort (wordId s.cmd) ⟨.illegalCommand, s.cmd⟩)

/-- The state after the engine step, for a read that races with it. -/
def engineAfter (s : State) : State :=
  match engineStep s with
  | .next t => t
  | .fault _ => s
  | .refused _ => s

end Sys2Proof.Machine
end

