-- ==== Sys2Proof/Machine/HostPort.lean ====
section
/-! DEFINITION. The host's side: the register window (10_state.md R31 to R35), BUF accesses (20_memory.md R102), the races of
20_memory.md R118 and 70_reset_and_hazards.md R550, and the host step (R540). -/

namespace Sys2Proof.Machine

/-- The registers of the window (R31). -/
inductive Reg where
  | id
  | ctrl
  | status
  | errcode
  | errinfo
  | irqen
  | cmd
  | result
  | result1
  | arg (i : Fin 8)
  | srcBase
  | srcLen
  | srcBitpos
  | dstBase
  | dstLen
  | dstPos
  | unitstat
  | rcLow
  | rcRange
  | rcHelp
  | rcBuffer
  | qsCfg
  | qsCnt
  | qsRate
  | hufLast
  | golA
  | golN
  | lzR
  | lzCfg
  | nekoKeyLo
  | nekoKeyHi
  deriving DecidableEq, Repr

/-- The offsets of the window below 0x060 (R31). -/
def regTableLow : List (Nat × Reg) := [
  (0x000, .id), (0x004, .ctrl), (0x008, .status), (0x00C, .errcode), (0x010, .errinfo), (0x014, .irqen), (0x018, .cmd),
  (0x01C, .result), (0x020, .result1), (0x040, .arg 0), (0x044, .arg 1), (0x048, .arg 2), (0x04C, .arg 3), (0x050, .arg 4),
  (0x054, .arg 5), (0x058, .arg 6), (0x05C, .arg 7)]

/-- The offsets of the window from 0x060 on (R31). -/
def regTableHigh : List (Nat × Reg) := [
  (0x060, .srcBase), (0x064, .srcLen), (0x068, .srcBitpos), (0x070, .dstBase), (0x074, .dstLen), (0x078, .dstPos),
  (0x080, .unitstat), (0x084, .rcLow), (0x088, .rcRange), (0x08C, .rcHelp), (0x090, .rcBuffer), (0x094, .qsCfg),
  (0x098, .qsCnt), (0x09C, .qsRate), (0x0A0, .hufLast), (0x0A4, .golA), (0x0A8, .golN), (0x0AC, .lzR), (0x0B0, .lzCfg),
  (0x0B4, .nekoKeyLo), (0x0B8, .nekoKeyHi)]

/-- The register at an offset; every other offset is reserved (R31). -/
def regAt (off : BitVec 8) : Option Reg :=
  ((regTableLow ++ regTableHigh).find? (fun p => p.1 == off.toNat)).map (·.2)

/-- The identification value (R31). -/
def idWord : Word := 0x44450001

/-- What a register holds (R31, R32, R33). -/
def State.regValue (s : State) (r : Reg) : Word :=
  match r with
  | .id => idWord
  | .ctrl => 0
  | .status => s.statusWord
  | .errcode => s.errcode
  | .errinfo => s.errinfo
  | .irqen => s.irqen
  | .cmd => s.cmd
  | .result => s.result
  | .result1 => s.result1
  | .arg i => s.args[i]
  | .srcBase => s.src.base
  | .srcLen => s.src.len
  | .srcBitpos => s.src.pos
  | .dstBase => s.dst.base
  | .dstLen => s.dst.len
  | .dstPos => s.dst.pos
  | .unitstat => s.unitstat
  | .rcLow => s.rc.low
  | .rcRange => s.rc.range
  | .rcHelp => s.rc.help
  | .rcBuffer => s.rc.buffer.setWidth 32
  | .qsCfg => s.qsCfgWord
  | .qsCnt => s.qsCntWord
  | .qsRate => s.qsRateWord
  | .hufLast => s.huf.last.setWidth 32
  | .golA => s.gol.a
  | .golN => s.gol.n.setWidth 32
  | .lzR => s.lz.r.setWidth 32
  | .lzCfg => s.lzCfgWord
  | .nekoKeyLo => s.neko.key.extractLsb' 0 32
  | .nekoKeyHi => s.neko.key.extractLsb' 32 32

/-- The registers whose reads race with a running command (R550 (d)): the results, the error record, UNITSTAT and the unit
registers. -/
def Reg.racy (r : Reg) : Bool :=
  match r with
  | .id => false
  | .ctrl => false
  | .status => false
  | .errcode => true
  | .errinfo => true
  | .irqen => false
  | .cmd => false
  | .result => true
  | .result1 => true
  | .arg _ => false
  | .srcBase => false
  | .srcLen => false
  | .srcBitpos => false
  | .dstBase => false
  | .dstLen => false
  | .dstPos => false
  | .unitstat => true
  | .rcLow => true
  | .rcRange => true
  | .rcHelp => true
  | .rcBuffer => true
  | .qsCfg => true
  | .qsCnt => true
  | .qsRate => true
  | .hufLast => true
  | .golA => true
  | .golN => true
  | .lzR => true
  | .lzCfg => true
  | .nekoKeyLo => true
  | .nekoKeyHi => true

/-- The host's program sees `v`. -/
def State.see (s : State) (v : Word) : State := { s with seen := v :: s.seen }

/-- A read of a register while a command is pending that R550 (d) calls a race: the value before the command or after it, and
which one is a free value (log 16). -/
def State.racedRead (s : State) (r : Reg) : State :=
  let t := s.endDraws
  t.see (if Config.freeBits 1 s.draws 0 = 0 then t.regValue r else (engineAfter t).regValue r)

/-- A read of a register (R31, R114): no side effect. -/
def State.readReg (s : State) (r : Reg) : State :=
  if s.busy && r.racy then s.racedRead r else s.see (s.regValue r)

/-- Whether an access reaches the register window (R103): an aligned 32-bit word. -/
def wordAccess (off : BitVec 8) (width : Width) : Bool := width == .word && off.toNat % 4 == 0

/-- A load from the window (R31, R103): a reserved offset, another width and another alignment read 0. -/
def State.load (s : State) (off : BitVec 8) (width : Width) : State :=
  if wordAccess off width then
    match regAt off with
    | some r => s.readReg r
    | none => s.see 0
  else s.see 0

/-- A write to CMD (30_encoding.md R130, 60_exceptions.md R514): it issues the command, or with one pending sets OVR alone. -/
def State.issue (s : State) (cw : Word) : State :=
  if s.busy then { s with ovr := true }
  else { s with cmd := cw, busy := true, tainted := false }

/-- A write of 1 to the W1C bits of STATUS (R31, R32). -/
def State.clearStatus (s : State) (v : Word) : State :=
  let s := if v.getLsbD 1 then { s with done := false } else s
  let s := if v.getLsbD 2 then s.ackErr else s
  if v.getLsbD 3 then { s with ovr := false } else s

/-- A write to an operand register while a command is pending races with it (R550 (c); log 15). -/
def State.race (s : State) : State := { s with tainted := s.tainted || s.busy }

/-- A write of `v` to a register (R31, R32): read-only registers ignore it. -/
def State.writeReg (s : State) (r : Reg) (v : Word) : State :=
  match r with
  | .id => s
  | .ctrl => if v.getLsbD 0 then s.softReset else s
  | .status => s.clearStatus v
  | .errcode => s
  | .errinfo => s
  | .irqen => { s with irqen := v &&& irqenMask }
  | .cmd => s.issue v
  | .result => s
  | .result1 => s
  | .arg i => { s with args := s.args.set i v }.race
  | .srcBase => { s with src := { s.src with base := v } }.race
  | .srcLen => { s with src := { s.src with len := v } }.race
  | .srcBitpos => { s with src := { s.src with pos := v } }.race
  | .dstBase => { s with dst := { s.dst with base := v } }.race
  | .dstLen => { s with dst := { s.dst with len := v } }.race
  | .dstPos => { s with dst := { s.dst with pos := v } }.race
  | .unitstat => s
  | .rcLow => s
  | .rcRange => s
  | .rcHelp => s
  | .rcBuffer => s
  | .qsCfg => s
  | .qsCnt => s
  | .qsRate => s
  | .hufLast => s
  | .golA => s
  | .golN => s
  | .lzR => s
  | .lzCfg => s
  | .nekoKeyLo => s
  | .nekoKeyHi => s

/-- A store to the window (R31, R103): a reserved offset, another width and another alignment are ignored. -/
def State.store (s : State) (off : BitVec 8) (width : Width) (v : Word) : State :=
  if wordAccess off width then
    match regAt off with
    | some r => s.writeReg r v
    | none => s
  else s

/-- How many bytes an access moves (R102). -/
def Width.bytes (w : Width) : Nat :=
  match w with
  | .byte => 1
  | .half => 2
  | .word => 4

/-- A host store of the low bytes of `v` to BUF (R102): ignored when it would pass the end; while a command is pending a race,
after which the written bytes and the command's output are UNSPECIFIED (R118). -/
def State.bufStore (s : State) (addr : Word) (width : Width) (v : Word) : State :=
  if s.cfg.bufSize < addr.toNat + width.bytes then s
  else if s.busy then
    { s with buf := s.buf.setSpan addr.toNat width.bytes (fun a => Config.freeBits 8 s.draws a) }.race.endDraws
  else { s with buf := memWriteLE none s.buf addr.toNat width.bytes v.toNat }

/-- A host load from BUF (R102): 0 when it would pass the end; while a command is pending an UNSPECIFIED value (R118). -/
def State.bufLoad (s : State) (addr : Word) (width : Width) : State :=
  if s.cfg.bufSize < addr.toNat + width.bytes then s.see 0
  else if s.busy then
    s.endDraws.see (wordOf (leNat ((List.range width.bytes).map (Config.freeBits 8 s.draws))))
  else s.see (wordOf (leNat (memRead s.buf addr.toNat width.bytes)))

/-- One host operation (R540), or the platform's reset (R541; log 20). -/
def State.hostOp (s : State) (op : HostOp) : State :=
  match op with
  | .st off width v => s.store off width v
  | .ld off width => s.load off width
  | .bufPut addr width v => s.bufStore addr width v
  | .bufGet addr width => s.bufLoad addr width
  | .hwReset => s.hwReset

/-- A host step (R540): the host's next operation, or nothing when it has none. -/
def State.hostStep (s : State) : State :=
  match s.host with
  | [] => s
  | op :: rest => { s with host := rest }.hostOp op

/-- One step of DE (R540): the agent whose turn it is moves. The engine's turn is empty while it is idle. With no turn given the
engine moves while a command is pending, else the host (log 1). -/
def nextStep (s : State) : Host.Outcome State Fault Refusal :=
  match s.turns with
  | [] => if s.busy then engineStep s else .next s.hostStep
  | .host :: rest => .next { s with turns := rest }.hostStep
  | .engine :: rest => if s.busy then engineStep { s with turns := rest } else .next { s with turns := rest }

/-- The state with a command word issued and the engine's turn next, as after a host write of `w` to CMD (log 22). -/
def State.withCommand (s : State) (w : Word) : State :=
  { s with cmd := w, busy := true, tainted := false, turns := [] }

end Sys2Proof.Machine
end

