-- ==== Sys2Proof/Machine/Step.lean ====
section
/-! DEFINITION. The one step of the machine, and the host's way of placing an instruction (70_reset_and_hazards.md R540). -/

namespace Sys2Proof.Machine

/-- One step (R540): an engine step or a host step. -/
def step (s : State) : Host.Outcome State Fault Refusal := nextStep s

/-- `s` with the instruction whose bits are `w` issued, so that the next step runs it. DE fetches nothing: a command comes from a
write to CMD (10_state.md R37; log 22). -/
def State.withFetchWord (s : State) (nbits w : Nat) : State := s.withCommand (BitVec.ofNat 32 (w % 2 ^ nbits))

end Sys2Proof.Machine
end

