-- ==== Sys2Proof/Safety.lean ====
section
/-! DEFINITION. What counts as a good state and a safe run, and the terms the claims are stated in: the two ends of a command
written out, the source span as bits and bytes, the codes of the bit streams, and the invariants. -/

namespace Sys2Proof.Machine

/-! ## The two ends of a command -/

/-- The abort of 60_exceptions.md R510 written out: command `unit`.`op` raised the error with this code and information word. -/
def State.aborted (s : State) (unit op code : Nat) (info : Word) : State :=
  { s with
    busy := false
    err := true
    errcode := BitVec.ofNat 32 (code + 256 * unit + 4096 * op)
    errinfo := info
    result := 0
    result1 := 0
    tainted := false
    draws := if s.tainted then s.draws + drawsPerEvent else s.draws }

/-- The completion of R512 written out. -/
def State.finished (s : State) : State :=
  { s with
    busy := false
    done := true
    tainted := false
    draws := if s.tainted then s.draws + drawsPerEvent else s.draws }

/-- Command `i`, that is `unit`.`op`, aborts with this code and information word (R510). -/
def raises (i : Instr) (s : State) (unit op code : Nat) (info : Word) : Prop :=
  ∃ t, exec i s = .next t ∧ t.err = true ∧ t.errcode = BitVec.ofNat 32 (code + 256 * unit + 4096 * op) ∧ t.errinfo = info

/-- The state after one command. -/
def State.run (s : State) (i : Instr) : State :=
  match exec i s with
  | .next t => t
  | .fault _ => s
  | .refused _ => s

/-- The source cursor at bit `p`. -/
def State.atBit (s : State) (p : Nat) : State := { s with src := { s.src with pos := BitVec.ofNat 32 p } }

/-- No race and no overlap: the command's output is determined (20_memory.md R118, R119). -/
def State.calm (s : State) : Prop := s.tainted = false ∧ s.spansOverlap = false

/-- A run is safe when it stops nowhere: every step answers a next state. -/
def SafeStep (s : State) : Prop := ∃ t, step s = .next t

/-! ## The source as bits and bytes -/

/-- Bit `p` of the source span as a number (20_memory.md R106). -/
def State.srcBitAt (s : State) (p : Nat) : Nat :=
  let byte := s.buf.get (s.src.base.toNat + p / 8)
  if byte.getLsbD (if s.lsb then p % 8 else 7 - p % 8) then 1 else 0

/-- The value of `n` bits, `f i` the `i`-th read: most significant first, or with `lsb` least significant first (R107). -/
def fieldValue (lsb : Bool) (n : Nat) (f : Nat → Nat) : Nat :=
  ((List.range n).map (fun i => f i * 2 ^ (if lsb then i else n - 1 - i))).sum

/-- The `n`-bit field of the source at cursor `p` (R107). -/
def State.srcField (s : State) (p n : Nat) : Nat := fieldValue s.lsb n (fun i => s.srcBitAt (p + i))

/-- The bits of `v` in the order an `n`-bit read takes them (R107). -/
def fieldBits (lsb : Bool) (n v : Nat) : List Nat :=
  (List.range n).map (fun i => v / 2 ^ (if lsb then i else n - 1 - i) % 2)

/-- The source span holds these bits from cursor `p` on. -/
def State.holdsBits (s : State) (p : Nat) (bits : List Nat) : Prop :=
  p + bits.length ≤ 8 * s.src.len.toNat ∧ ∀ i, (h : i < bits.length) → s.srcBitAt (p + i) = bits[i]

/-- The source span holds these bytes from byte offset `q` on. -/
def State.holdsBytes (s : State) (q : Nat) (bytes : List Byte) : Prop :=
  q + bytes.length ≤ s.src.len.toNat ∧ ∀ i, (h : i < bytes.length) → s.buf.get (s.src.base.toNat + q + i) = bytes[i]

/-- The byte offset the next whole-byte read is at (R108). -/
def State.nextByte (s : State) : Nat := (s.src.pos.toNat + 7) / 8

/-! ## Codes of the bit streams -/

/-- The ERI gamma code of `v >= 1` (43_golomb_gamma.md R300): `0` for 1; else `1`, then per bit below the top one that bit and a
continue bit. -/
def eriCode (v : Nat) : List Nat :=
  if v = 1 then [0]
  else 1 :: (List.range v.log2).flatMap (fun j => [v / 2 ^ (v.log2 - 1 - j) % 2, if j + 1 = v.log2 then 0 else 1])

/-- The run-length gamma code of `v >= 1` (R301): `z` zeros, a one, the `z` bits below the top one. -/
def runCode (lsb : Bool) (v : Nat) : List Nat :=
  List.replicate v.log2 0 ++ 1 :: fieldBits lsb v.log2 (v - 2 ^ v.log2)

/-- The Golomb-Rice code of `v` with bit length `k` (R318): `v / 2^k` zeros, a one, the low `k` bits. -/
def golombCode (lsb : Bool) (k v : Nat) : List Nat :=
  List.replicate (v / 2 ^ k) 0 ++ 1 :: fieldBits lsb k (v % 2 ^ k)

/-- The sums `B[n]` of R316: entry `i` is the first accumulator value whose bit length is above `i`. -/
def golombBounds (n : BitVec 2) : List Nat :=
  match n.toNat with
  | 0 => [3, 10, 25, 52, 115, 223, 446, 894, 1024]
  | 1 => [3, 8, 21, 45, 96, 191, 383, 767, 1024]
  | 2 => [2, 7, 19, 40, 79, 165, 320, 640, 1024]
  | _ => [2, 5, 14, 32, 65, 126, 255, 513, 1024]

/-- `k` is GOL_TABLE[a][n] (R316): the smallest index whose sum is above `a`. -/
def isGolombLength (a : Nat) (n : BitVec 2) (k : Nat) : Prop :=
  k < 9 ∧ a < (golombBounds n).getD k 0 ∧ ∀ j < k, (golombBounds n).getD j 0 ≤ a

/-- The residual of code `v` (R318). -/
def residualOf (v : Nat) : Word := if v % 2 = 1 then BitVec.ofNat 32 (v / 2 + 1) else - BitVec.ofNat 32 (v / 2 + 1)

/-- The Golomb context after code `v` (R318). -/
def golombNext (g : Gol) (v : Nat) : Gol :=
  if g.n = 0 then ⟨(g.a + BitVec.ofNat 32 (v / 2)) >>> 1, 3⟩ else ⟨g.a + BitVec.ofNat 32 (v / 2), g.n - 1⟩

/-- GOL_TABLE[GOL_A][GOL_N] from the sums of R316. -/
def golombLength (g : Gol) : Nat := (golombBounds g.n).findIdx (fun b => decide (g.a.toNat < b))

/-- The codes of a run's values one after another, most significant bit first (R318, R320). -/
def golValuesCode (g : Gol) (vs : List Nat) : List Nat :=
  match vs with
  | [] => []
  | v :: rest => golombCode false (golombLength g) v ++ golValuesCode (golombNext g v) rest

/-- Every value of a run has a code in the context it meets: the accumulator in range, the prefix below 256 (R318). -/
def golCodable (g : Gol) (vs : List Nat) : Prop :=
  match vs with
  | [] => True
  | v :: rest => g.a.toNat < 1024 ∧ v / 2 ^ golombLength g ≤ 255 ∧ golCodable (golombNext g v) rest

/-- The runs of a GOL_DECODE block after its first bit (R320), zero runs and coded runs by turns; of a zero run only the length
counts. -/
def golRunsCode (zero : Bool) (g : Gol) (runs : List (List Nat)) : List Nat :=
  match runs with
  | [] => []
  | vs :: rest =>
    if zero then runCode false vs.length ++ golRunsCode false g rest
    else runCode false vs.length ++ golValuesCode g vs ++ golRunsCode true (vs.foldl golombNext g) rest

/-- The runs are not empty, and the coded ones have codes. -/
def golRunsCodable (zero : Bool) (g : Gol) (runs : List (List Nat)) : Prop :=
  match runs with
  | [] => True
  | vs :: rest =>
    vs ≠ [] ∧ if zero then golRunsCodable false g rest
      else golCodable g vs ∧ golRunsCodable true (vs.foldl golombNext g) rest

/-- The context after the runs. -/
def golRunsNext (zero : Bool) (g : Gol) (runs : List (List Nat)) : Gol :=
  match runs with
  | [] => g
  | vs :: rest => if zero then golRunsNext false g rest else golRunsNext true (vs.foldl golombNext g) rest

/-- The bytes the runs store: zeros, or the low bytes of the residuals. -/
def golRunsBytes (zero : Bool) (runs : List (List Nat)) : List Byte :=
  match runs with
  | [] => []
  | vs :: rest => vs.map (fun v => if zero then 0 else (residualOf v).setWidth 8) ++ golRunsBytes (!zero) rest

/-- Literals of LZSS variant 0 (44_lzss.md R350): a flag byte of ones before every eight; `k` of the current flags are left. -/
def stdLiterals (k : Nat) (bytes : List Byte) : List Byte :=
  match bytes with
  | [] => []
  | b :: rest =>
    match k with
    | 0 => 0xFF :: b :: stdLiterals 7 rest
    | k + 1 => b :: stdLiterals k rest

/-- Literals of LZSS variant 2 (R352): a flag byte of zeros before every eight. -/
def tlg5Literals (k : Nat) (bytes : List Byte) : List Byte :=
  match bytes with
  | [] => []
  | b :: rest =>
    match k with
    | 0 => 0x00 :: b :: tlg5Literals 7 rest
    | k + 1 => b :: tlg5Literals k rest

/-- Literals of LZSS variant 1 (R351): a one bit before each byte. -/
def onsLiterals (lsb : Bool) (bytes : List Byte) : List Nat := bytes.flatMap (fun b => 1 :: fieldBits lsb 8 b.toNat)

/-- From the internal node whose `C` is `ch`, `bits` lead to the leaf `node` (42_huffman.md R268). -/
def hufPath (c : Store 32) (ch : BitVec 32) (bits : List Nat) (node : Nat) : Prop :=
  match bits with
  | [] => False
  | b :: rest =>
    if rest = [] then node = ch.toNat + b ∧ (c.get node).msb = true
    else (c.get (ch.toNat + b)).msb = false ∧ hufPath c (c.get (ch.toNat + b)) rest node

/-- From the internal node whose `C` is `ch`, `bits` lead through internal nodes only (R268). -/
def hufInner (c : Store 32) (ch : BitVec 32) (bits : List Nat) : Prop :=
  match bits with
  | [] => True
  | b :: rest => (c.get (ch.toNat + b)).msb = false ∧ hufInner c (c.get (ch.toNat + b)) rest

/-- Camellia encryption with the subkeys of 45_camellia.md R387 taken in rising order: what R389 says CamDec inverts. -/
def camEnc (l a p : BitVec 128) (rho : Nat) : BitVec 128 :=
  let d := (hi64 p ^^^ subkeyHi l 0 rho, lo64 p ^^^ subkeyLo l 0 rho)
  let d := camRounds d (subkeyHi a 0 rho) (subkeyLo a 0 rho)
  let d := camRounds d (subkeyHi l 15 rho) (subkeyLo l 15 rho)
  let d := camRounds d (subkeyHi a 15 rho) (subkeyLo a 15 rho)
  let d := camLayer d (subkeyHi a 30 rho) (subkeyLo a 30 rho)
  let d := camRounds d (subkeyHi l 45 rho) (subkeyLo l 45 rho)
  let d := camRounds d (subkeyHi a 45 rho) (subkeyLo l 60 rho)
  let d := camRounds d (subkeyHi a 60 rho) (subkeyLo a 60 rho)
  let d := camLayer d (subkeyHi l 77 rho) (subkeyLo l 77 rho)
  let d := camRounds d (subkeyHi l 94 rho) (subkeyLo l 94 rho)
  let d := camRounds d (subkeyHi a 94 rho) (subkeyLo a 94 rho)
  let d := camRounds d (subkeyHi l 111 rho) (subkeyLo l 111 rho)
  (d.2 ^^^ subkeyHi a 111 rho) ++ (d.1 ^^^ subkeyLo a 111 rho)

/-- The running NekoPack key after the first `j` words from address `a` on (46_nekopack.md R420, R424). -/
def nekoKeyAfter (buf : Store 8) (a : Nat) (key : BitVec 64) (j : Nat) : BitVec 64 :=
  match j with
  | 0 => key
  | j + 1 => paddw (nekoKeyAfter buf a key j) (nekoRead buf (a + 8 * j))

/-- RC after `n` iterations of `RcNormalize()` on the next source bytes (41_range_coder.md R203). -/
def State.rcAfter (s : State) (n : Nat) : Rc :=
  match n with
  | 0 => s.rc
  | n + 1 =>
    let rc := s.rcAfter n
    let x := s.cfg.rcExtraBits
    let b := s.buf.get (s.src.base.toNat + s.nextByte + n)
    { rc with
      low := (rc.low <<< 8 ||| (rc.buffer <<< x).setWidth 32) ||| (b >>> (8 - x)).setWidth 32
      buffer := b
      range := rc.range <<< 8 }

/-- Other values in ARG0 to ARG2. -/
def State.withArgs (s : State) (a b c : Word) : State := { s with args := ((s.args.set 0 a).set 1 b).set 2 c }

/-- RC_CULSHIFT by the model's LG_TOTF. -/
def State.culshiftRun (s : State) : State := s.run (.rcCulshift (s.qs.lgTotf.setWidth 5))

/-- One turn of the loop of R230 by commands of its own, RC_CULSHIFT, QS_GETSYM, QS_GETFREQ and RC_UPDATE: the symbol and the
state after them. -/
def State.rcTurn (s : State) : Word × State :=
  let a := s.culshiftRun
  let b := (a.withArgs a.result 0 0).run .qsGetsym
  let c := (b.withArgs b.result 0 0).run .qsGetfreq
  (b.result, (c.withArgs c.result c.result1 (BitVec.ofNat 32 (2 ^ s.qs.lgTotf.toNat))).run .rcUpdate)

/-- Turns that decode these bytes, each counted with QS_UPDATE, lead to `t`. -/
def State.rcReads (s : State) (bytes : List Byte) (t : State) : Prop :=
  match bytes with
  | [] => t = s
  | b :: rest =>
    s.rcTurn.1 = b.setWidth 32 ∧ ((s.rcTurn.2.withArgs (b.setWidth 32) 0 0).run .qsUpdate).rcReads rest t

/-! ## Rounding to binary32 (47_transform.md R441) -/

/-- `r` is the binary32 value nearest to `v * 2^-(149 + u)`, ties to even, with the sign `neg`; what rounds past the largest finite
value is infinite. -/
def isRounded (neg : Bool) (v : Int) (u : Nat) (r : F32) : Prop :=
  r.msb = neg ∧
    if (2 ^ 25 - 1) * 2 ^ (252 + u) ≤ v.natAbs then r = fInf neg
    else fFinite r = true ∧ ∀ z : F32, fFinite z = true →
      (fInt r * 2 ^ u - v).natAbs ≤ (fInt z * 2 ^ u - v).natAbs
      ∧ (fInt z ≠ fInt r → (fInt r * 2 ^ u - v).natAbs = (fInt z * 2 ^ u - v).natAbs → r.getLsbD 0 = false)

/-! ## Kinds of commands -/

/-- The commands that write BUF. -/
def storing (i : Instr) : Bool :=
  match i with
  | .rcDecode | .golDecode | .lzDecompress _ | .camDecblk | .camDecrange | .nekoDecrypt | .xfStore16 _ | .xfStoref _
  | .xfRestore _ => true
  | _ => false

/-- The commands that move the source cursor. -/
def movesSource (i : Instr) : Bool :=
  match i with
  | .brGetbit | .brGetbits _ | .brAlign | .rcStart | .rcCulshift _ | .rcNormalize | .rcDecode | .hufGetcode | .golGamma
  | .golRunlen | .golValue | .golDecode | .lzDecompress _ => true
  | _ => false

/-- The commands whose rule names a RESULT. -/
def namesResult (i : Instr) : Bool :=
  match i with
  | .brGetbit | .brGetbits _ | .brPeekbits _ | .brAlign | .rcStart | .rcCulshift _ | .rcNormalize | .rcDecode | .qsGetsym
  | .qsGetfreq | .hufGetcode | .golGamma | .golRunlen | .golValue | .golDecode | .lzDecompress _ | .camDecrange
  | .nekoDecrypt => true
  | _ => false

/-- The commands whose rule names a RESULT1. -/
def namesResult1 (i : Instr) : Bool :=
  match i with
  | .brPeekbits _ | .rcDecode | .qsGetfreq | .hufGetcode | .golGamma | .golRunlen | .golValue => true
  | _ => false

/-! ## Invariants -/

/-- BUF is canonical and lists no address that does not exist (20_memory.md R101, 60_exceptions.md R505); the reserved bits of
IRQEN are 0 (10_state.md R32); only a pending command is raced. -/
structure State.BufInv (s : State) : Prop where
  canonical : s.buf.wf = true
  inside : ∀ c ∈ s.buf.cells, c.1 < s.cfg.bufSize
  irqen : s.irqen &&& 0xFFFFFFF1 = 0
  raced : s.tainted = true → s.busy = true

/-- The frequencies being collected, added up. -/
def Qs.collected (q : Qs) : Nat := ((List.range 257).map (fun i => (q.newf.get i).toNat)).sum

/-- The model invariants of 41_range_coder.md R226 and the ranges of R216 and R220. -/
structure Qs.Good (q : Qs) : Prop where
  total_range : 9 ≤ q.lgTotf.toNat
  shift_eq : q.shift.toNat = q.lgTotf.toNat - 7
  target_pos : q.target.toNat ≠ 0
  first : q.cf.get 0 = 0
  last : (q.cf.get 257).toNat = 2 ^ q.lgTotf.toNat
  rises : ∀ i ≤ 256, (q.cf.get i).toNat < (q.cf.get (i + 1)).toNat
  counted : ∀ i ≤ 256, 1 ≤ (q.newf.get i).toNat
  rescale_range : 18 ≤ q.rescale.toNat ∧ q.rescale.toNat ≤ 65535
  conserved : q.collected + q.left.toNat * q.incr.toNat + q.nextleft.toNat * (q.incr.toNat + 1) = 2 ^ q.lgTotf.toNat
  bucket_end : (q.search.get 128).toNat = 256
  bucket : ∀ b < 128, (q.search.get b).toNat ≤ 256
    ∧ (q.cf.get (q.search.get b).toNat).toNat ≤ b * 2 ^ q.shift.toNat
    ∧ b * 2 ^ q.shift.toNat < (q.cf.get ((q.search.get b).toNat + 1)).toNat

/-- An initialised model is good (R226). -/
def State.QsInv (s : State) : Prop := s.qs.valid = true → s.qs.Good

/-- An initialised window has one of the sizes of 44_lzss.md R340 and its write position lies in it; a loaded key has its derived
key (10_state.md R46). -/
structure State.UnitInv (s : State) : Prop where
  window : s.lz.valid = true → s.lz.w.toNat ∈ lzWindowSizes ∧ s.lz.r.toNat < s.lz.w.toNat
  key : s.cam.keyed = true → s.cam.ka = camDerive s.cam.kl

/-- The tree of no symbol (42_huffman.md R262): HUF_GETCODE reads these three of it and the first symbol sets the rest. -/
structure Tree.Empty (t : Tree) : Prop where
  esc : t.esc = hufNull
  tp : t.tp.toNat = hufRoot
  root : t.c.get hufRoot = 0x8000

/-- The codes a leaf may hold (R260): a symbol's or the escape's. -/
def isLeaf (c : BitVec 32) : Prop := c = hufEscape ∨ ∃ v : Byte, c = leafCode v

/-- A tree with symbols, in the invariants of R285: the internal nodes' weights and parents (item 1), the order of the weights
(item 2), the nodes in use (item 4) and the escape (item 5); of item 3 the bound that R265 and R266 keep (log 25). -/
structure Tree.Filled (t : Tree) : Prop where
  low : t.tp.toNat ≤ 0x1FE ∧ t.tp.toNat % 2 = 0
  root : (t.c.get hufRoot).msb = false
  leaf : ∀ q, t.tp.toNat ≤ q → q < hufRoot → (t.c.get q).msb = true → isLeaf (t.c.get q)
  inner : ∀ q, t.tp.toNat ≤ q → q ≤ hufRoot → (t.c.get q).msb = false →
    t.tp.toNat ≤ t.child q ∧ t.child q % 2 = 0 ∧ t.child q + 1 < q
    ∧ t.weight q = t.weight (t.child q) + t.weight (t.child q + 1)
    ∧ (t.p.get (t.child q)).toNat = q ∧ (t.p.get (t.child q + 1)).toNat = q
  parent : ∀ i, t.tp.toNat ≤ i → i < hufRoot → i < (t.p.get i).toNat ∧ (t.p.get i).toNat ≤ hufRoot
    ∧ (t.c.get (t.p.get i).toNat).msb = false ∧ t.child (t.p.get i).toNat = i - i % 2
  counted : 1 ≤ t.weight t.tp.toNat
  rises : ∀ i, t.tp.toNat ≤ i → i < hufRoot → t.weight i ≤ t.weight (i + 1)
  ceiling : t.weight hufRoot ≤ hufMax
  escape : t.tp.toNat ≤ t.esc.toNat ∧ t.esc.toNat < hufRoot ∧ t.c.get t.esc.toNat = hufEscape
  oneEscape : ∀ i, t.tp.toNat ≤ i → i < hufRoot → t.c.get i = hufEscape → i = t.esc.toNat

/-- The trees of an initialised decoder are empty or in the invariants of R285. -/
def State.TreeInv (s : State) : Prop :=
  s.huf.valid = true → ∀ k : Fin 256, s.huf.trees[k].Empty ∨ s.huf.trees[k].Filled

/-- The leaves of a tree from the lowest node on, code and weight. -/
def Tree.leaves (t : Tree) : List (BitVec 32 × Nat) :=
  ((List.range' t.tp.toNat (hufRoot - t.tp.toNat)).filter (fun i => isLeafCode (t.c.get i))).map
    (fun i => (t.c.get i, t.weight i))

/-- The halving of `HalfAndRebuild` on a leaf (R267). -/
def halveLeaf (l : BitVec 32 × Nat) : BitVec 32 × Nat := (l.1, (l.2 + 1) / 2)

/-- A model right after QS_INIT or QS_RESET for this total and target (R216, R217, R220). -/
structure Qs.Fresh (q : Qs) (lg target : Nat) : Prop where
  valid : q.valid = true
  lg_eq : q.lgTotf.toNat = lg
  shift_eq : q.shift.toNat = lg - 7
  target_eq : q.target.toNat = target
  cf_eq : ∀ i ≤ 257, (q.cf.get i).toNat = i * (2 ^ lg / 257) + min i (2 ^ lg % 257)
  newf_eq : ∀ i ≤ 256, (q.newf.get i).toNat = (2 ^ lg / 257 + if i < 2 ^ lg % 257 then 1 else 0) / 2 ||| 1
  rescale_eq : q.rescale.toNat = if 18 < target then min 36 target else 18
  incr_eq : q.incr.toNat = (2 ^ lg - q.collected) / q.rescale.toNat
  nextleft_eq : q.nextleft.toNat = (2 ^ lg - q.collected) % q.rescale.toNat
  left_eq : q.left.toNat = q.rescale.toNat - q.nextleft.toNat

end Sys2Proof.Machine
end

