-- ==== Sys2Proof/Certificates/Slice0/Obligations.lean ====
section
/-! DEFINITION. The statements for the provers. Each docstring names the rules of spec/ its statement comes from; a clause that
rests on a choice of the model names its log entry. -/

open Sys2Proof Sys2Proof.Machine

/-! ## Encoding -/

/-- 30_encoding.md R131, R135: the decoder reads back every command the encoder writes, whatever its immediate, one a command rule
refuses included. -/
def Obligations.DecodeOfEncode : Prop := ∀ i : Instr, decode (encode i) = .ok i

/-- 30_encoding.md R133, R134: a word that decodes is exactly the encoding of what it decodes to, so every bit of it is compared
or is in the immediate. -/
def Obligations.EncodeOfDecode : Prop := ∀ (w : Word) (i : Instr), decode w = .ok i → encode i = w

/-- 30_encoding.md R135: words written out from the opcode map decode to the commands they stand for, one for each unit. -/
def Obligations.DecodesWrittenWords : Prop :=
  decode 0x01000006 = .ok (.srstUnit 6) ∧ decode 0x1200000C = .ok (.brGetbits 12) ∧ decode 0x2100000C = .ok (.rcCulshift 12)
    ∧ decode 0x32000000 = .ok .qsGetsym ∧ decode 0x40000001 = .ok (.hufInit 1) ∧ decode 0x54000000 = .ok .golDecode
    ∧ decode 0x61000002 = .ok (.lzDecompress 2) ∧ decode 0x71000000 = .ok .camDecblk ∧ decode 0x82000000 = .ok .nekoDecrypt
    ∧ decode 0x9A000003 = .ok (.xfRestore 3) ∧ decode 0x97000000 = .ok .xfClrcarry

/-! ## Steps, issue and the host's side -/

/-- 70_reset_and_hazards.md R540, 30_encoding.md R133: an engine step runs the decoded command word of CMD; the host's next
operation is one step; with nothing to do the state stays. Which agent moves is the model's presentation of the interleaving, which
R540 leaves open: the order of `turns`, and with no turn given the engine while a command is pending, else the host (log 1). -/
def Obligations.StepRunsDecodedCommand : Prop :=
  (∀ (s : State) (i : Instr), s.busy = true → decode s.cmd = .ok i →
    (s.turns = [] → step s = exec i s)
      ∧ (∀ rest, s.turns = .engine :: rest → step s = exec i { s with turns := rest }))
  ∧ (∀ (s : State) op rest, s.host = op :: rest →
    (s.turns = [] → s.busy = false → step s = .next ({ s with host := rest }.hostOp op))
      ∧ (∀ ts, s.turns = .host :: ts → step s = .next ({ s with turns := ts, host := rest }.hostOp op)))
  ∧ (∀ s : State, s.turns = [] → s.busy = false → s.host = [] → step s = .next s)

/-- 30_encoding.md R133, R134, 60_exceptions.md R502, R510: an engine step on a word that is no command aborts with IllegalCommand
and changes nothing but the registers of an abort; a reserved unit and a reserved high bit of `F` are such words. -/
def Obligations.IllegalCommandAborts : Prop :=
  (∀ s : State, s.busy = true → s.turns = [] → (∀ i, encode i ≠ s.cmd) →
    step s = .next (s.aborted (s.cmd.toNat / 2 ^ 28) (s.cmd.toNat / 2 ^ 24 % 16) 4 s.cmd))
  ∧ (∀ w : Word, 10 * 2 ^ 28 ≤ w.toNat ∨ w.toNat / 64 % 2 ^ 18 ≠ 0 → ∀ i, encode i ≠ w)

/-- 60_exceptions.md R514, and 30_encoding.md R130 for the idle engine: a CMD write while BUSY sets OVR, changes nothing else and
does not affect the running command; while idle it issues the command. -/
def Obligations.CmdWriteIssuesOrOverruns : Prop :=
  (∀ (s : State) (cw : Word), s.busy = true → s.store 0x18 .word cw = { s with ovr := true })
  ∧ (∀ (s t : State) (i : Instr), exec i s = .next t → exec i { s with ovr := true } = .next { t with ovr := true })
  ∧ (∀ (s : State) (cw : Word), s.busy = false →
    s.store 0x18 .word cw = { s with cmd := cw, busy := true, tainted := false })

/-- A register access of another width or alignment is ignored, or reads 0, with no side effect: the model follows 20_memory.md R103
here, although item I3 of 93_implementation_defined.md calls such an access outside the model (log 17). -/
def Obligations.NarrowOrUnalignedAccessIgnored : Prop :=
  ∀ (s : State) (off : BitVec 8) (width : Width) (v : Word), width ≠ .word ∨ off.toNat % 4 ≠ 0 →
    s.store off width v = s ∧ s.load off width = { s with seen := 0 :: s.seen }

/-- 10_state.md R31, R32, R33, R34: what each register of the window reads while the engine is idle; reserved offsets read 0 and ignore
writes; writes to read-only registers are ignored; a write to an operand register sets that register and nothing else. -/
def Obligations.RegisterWindow : Prop :=
  ∀ s : State, s.busy = false →
    (∀ off v, (off, v) ∈ ([(0x00, 0x44450001), (0x04, 0), (0x08, s.statusWord), (0x0C, s.errcode), (0x10, s.errinfo),
        (0x14, s.irqen), (0x18, s.cmd), (0x1C, s.result), (0x20, s.result1), (0x60, s.src.base), (0x64, s.src.len),
        (0x68, s.src.pos), (0x70, s.dst.base), (0x74, s.dst.len), (0x78, s.dst.pos), (0x80, s.unitstat), (0x84, s.rc.low),
        (0x88, s.rc.range), (0x8C, s.rc.help), (0x90, s.rc.buffer.setWidth 32),
        (0x94, s.qs.target ++ (s.qs.lgTotf.setWidth 16)), (0x98, s.qs.nextleft ++ s.qs.left),
        (0x9C, s.qs.rescale.setWidth 16 ++ s.qs.incr), (0xA0, s.huf.last.setWidth 32), (0xA4, s.gol.a),
        (0xA8, s.gol.n.setWidth 32), (0xAC, s.lz.r.setWidth 32), (0xB0, s.lz.fill.setWidth 16 ++ s.lz.w.setWidth 16),
        (0xB4, s.neko.key.setWidth 32), (0xB8, (s.neko.key >>> 32).setWidth 32)] : List (BitVec 8 × Word)) →
      s.load off .word = { s with seen := v :: s.seen })
    ∧ (∀ i : Fin 8, s.load (BitVec.ofNat 8 (0x40 + 4 * i.val)) .word = { s with seen := s.args[i] :: s.seen })
    ∧ (∀ off : BitVec 8, (0x24 ≤ off ∧ off < 0x40) ∨ off = 0x6C ∨ off = 0x7C ∨ 0xBC ≤ off →
      s.load off .word = { s with seen := 0 :: s.seen } ∧ ∀ v, s.store off .word v = s)
    ∧ (∀ off : BitVec 8, off = 0x00 ∨ off = 0x0C ∨ off = 0x10 ∨ off = 0x1C ∨ off = 0x20 ∨ 0x80 ≤ off →
      ∀ v, s.store off .word v = s)
    ∧ (∀ (i : Fin 8) (v : Word), s.store (BitVec.ofNat 8 (0x40 + 4 * i.val)) .word v = { s with args := s.args.set i v })
    ∧ (∀ v : Word, s.store 0x60 .word v = { s with src := { s.src with base := v } }
      ∧ s.store 0x64 .word v = { s with src := { s.src with len := v } }
      ∧ s.store 0x68 .word v = { s with src := { s.src with pos := v } }
      ∧ s.store 0x70 .word v = { s with dst := { s.dst with base := v } }
      ∧ s.store 0x74 .word v = { s with dst := { s.dst with len := v } }
      ∧ s.store 0x78 .word v = { s with dst := { s.dst with pos := v } })
    ∧ (s.statusWord.toNat = (if s.busy then 1 else 0) + (if s.done then 2 else 0) + (if s.err then 4 else 0)
      + (if s.ovr then 8 else 0))
    ∧ (s.unitstat.toNat = (if s.qs.valid then 1 else 0) + (if s.huf.valid then 2 else 0) + (if s.huf.order1 then 4 else 0)
      + (if s.lz.valid then 8 else 0) + (if s.cam.keyed then 16 else 0) + (if s.neko.keyed then 32 else 0)
      + (if s.lsb then 64 else 0) + 256 * (match s.rc.st with | .idle => 0 | .decoding => 1 | .done => 2))

/-- 10_state.md R31, R32, 60_exceptions.md R520: writing 1 to a W1C bit of STATUS clears it, clearing ERR zeroes ERRCODE and
ERRINFO, IRQEN keeps bits 3:1 of a write, and IRQ is the enabled part of STATUS. -/
def Obligations.StatusWriteAndIrq : Prop :=
  ∀ (s : State) (v : Word),
    s.store 0x08 .word v = { s with
      done := s.done && !v.getLsbD 1
      err := s.err && !v.getLsbD 2
      ovr := s.ovr && !v.getLsbD 3
      errcode := if v.getLsbD 2 then 0 else s.errcode
      errinfo := if v.getLsbD 2 then 0 else s.errinfo }
    ∧ s.store 0x14 .word v = { s with irqen := v &&& 0xE }
    ∧ (s.irq = true ↔ (s.irqen.getLsbD 1 = true ∧ s.done = true) ∨ (s.irqen.getLsbD 2 = true ∧ s.err = true)
      ∨ (s.irqen.getLsbD 3 = true ∧ s.ovr = true))

/-- 10_state.md R31, R55, 70_reset_and_hazards.md R541: the registers after a hardware reset, at the model's start and from every
state. -/
def Obligations.ResetValues : Prop :=
  ∀ s : State, ∀ t, t = State.reset ∨ t = s.hwReset →
    (∀ r : Reg, t.regValue r = if r = .id then 0x44450001 else if r = .golN then 3 else 0)
    ∧ t.busy = false ∧ t.irq = false ∧ t.rc.st = .idle ∧ t.lsb = false ∧ t.qs.shift = 0 ∧ t.qs.rescale = 0
    ∧ ∀ i, t.xf.xc.get i = 0

/-- 70_reset_and_hazards.md R542: a write with bit 0 to CTRL resets everything but BUF and discards a pending command with none
of its effects; without bit 0 it has no effect. -/
def Obligations.SoftResetPreservesBuf : Prop :=
  ∀ (s : State) (v : Word),
    (v.getLsbD 0 = true →
      (s.store 0x04 .word v).buf = s.buf ∧ (s.store 0x04 .word v).busy = false ∧ (s.store 0x04 .word v).done = false
      ∧ (s.store 0x04 .word v).err = false ∧ (s.store 0x04 .word v).host = s.host
      ∧ (∀ r, (s.store 0x04 .word v).regValue r = State.reset.regValue r)
      ∧ ∀ i, (s.store 0x04 .word v).xf.xc.get i = 0)
    ∧ (v.getLsbD 0 = false → s.store 0x04 .word v = s)

/-- 20_memory.md R102: an idle engine's BUF through the host's window: what is stored reads back, little-endian, other bytes stay;
an access past the end is ignored or reads 0. -/
def Obligations.HostBufAccess : Prop :=
  ∀ (s : State) (addr : Word) (width : Width) (v : Word), s.busy = false →
    (addr.toNat + width.bytes ≤ s.cfg.bufSize →
      ((s.bufStore addr width v).bufLoad addr width).seen = BitVec.ofNat 32 (v.toNat % 256 ^ width.bytes) :: s.seen
      ∧ (∀ j < width.bytes, (s.bufStore addr width v).buf.get (addr.toNat + j) = BitVec.ofNat 8 (v.toNat / 256 ^ j))
      ∧ ∀ a, a < addr.toNat ∨ addr.toNat + width.bytes ≤ a → (s.bufStore addr width v).buf.get a = s.buf.get a)
    ∧ (s.cfg.bufSize < addr.toNat + width.bytes →
      s.bufStore addr width v = s ∧ (s.bufLoad addr width).seen = 0 :: s.seen)

/-- 20_memory.md R118, R119, 70_reset_and_hazards.md R550: a write to BUF or to an operand register while a command is pending
taints it; a tainted or overlapping command that completes leaves RESULT and RESULT1 as they were or free, and every byte of BUF
as it was or free (which values are free is the model's reading, log 15). A read of BUF while a command is pending is free; one of
a register that R550 d names shows the value before the command or the value after it (log 16), any other register its own; no
read changes more than the draw counter. -/
def Obligations.RacedCommandOutputIsFree : Prop :=
  (∀ (s : State) (off : BitVec 8) (v : Word), s.busy = true → off.toNat % 4 = 0 →
    (0x40 ≤ off ∧ off < 0x6C) ∨ (0x70 ≤ off ∧ off < 0x7C) → (s.store off .word v).tainted = true)
  ∧ (∀ (s : State) (addr : Word) (width : Width) (v : Word), s.busy = true → addr.toNat + width.bytes ≤ s.cfg.bufSize →
    (s.bufStore addr width v).tainted = true
    ∧ ∀ j < width.bytes, ∃ k, (s.bufStore addr width v).buf.get (addr.toNat + j) = Config.freeBits 8 k (addr.toNat + j))
  ∧ (∀ (s t : State) (i : Instr), exec i s = .next t →
    s.tainted = true ∨ (s.spansOverlap = true
      ∧ (i = .rcDecode ∨ (∃ v, i = .lzDecompress v) ∨ (i = .golDecode ∧ s.arg 0 ≠ 0))) →
    (s.err = false → t.err = false →
      (t.result = s.result ∨ t.result = Config.freeBits 32 s.draws 0)
      ∧ (t.result1 = s.result1 ∨ t.result1 = Config.freeBits 32 s.draws 1))
    ∧ ∀ a, t.buf.get a = s.buf.get a ∨ ∃ k, t.buf.get a = Config.freeBits 8 k a)
  ∧ (∀ (s : State) (addr : Word) (width : Width), s.busy = true → addr.toNat + width.bytes ≤ s.cfg.bufSize →
    ∃ k, s.bufLoad addr width = { s with
      draws := s.draws + drawsPerEvent
      seen := BitVec.ofNat 32 (leNat ((List.range width.bytes).map (Config.freeBits 8 k))) :: s.seen })
  ∧ (∀ (s : State) (off : BitVec 8) (r : Reg), s.busy = true → regAt off = some r →
    ((0x0C ≤ off ∧ off < 0x14) ∨ (0x1C ≤ off ∧ off < 0x24) ∨ 0x80 ≤ off → ∃ v, s.load off .word = { s with
        draws := s.draws + drawsPerEvent
        seen := v :: s.seen }
      ∧ (v = s.regValue r ∨ ∃ t, engineStep { s with draws := s.draws + drawsPerEvent } = .next t ∧ v = t.regValue r))
    ∧ (off < 0x0C ∨ (0x14 ≤ off ∧ off < 0x1C) ∨ (0x24 ≤ off ∧ off < 0x80) →
      s.load off .word = { s with seen := s.regValue r :: s.seen }))

/-! ## The two ends of every command -/

/-- 60_exceptions.md R500, R509, R510, R512, 10_state.md R34: every command completes or aborts with one error code of its own
unit and operation, CommandOverrun and DecryptionMismatch never; no command writes ARGi, the span bases and lengths, CMD, IRQEN or
OVR; and no step of the machine stops. -/
def Obligations.EveryCommandEnds : Prop :=
  (∀ (i : Instr) (s : State), ∃ t, exec i s = .next t
    ∧ t.busy = false ∧ t.tainted = false ∧ t.cmd = s.cmd ∧ t.irqen = s.irqen ∧ t.ovr = s.ovr ∧ t.args = s.args
    ∧ t.src.base = s.src.base ∧ t.src.len = s.src.len ∧ t.dst.base = s.dst.base ∧ t.dst.len = s.dst.len
    ∧ t.cfg = s.cfg ∧ t.host = s.host ∧ t.turns = s.turns ∧ t.seen = s.seen
    ∧ ((t.done = true ∧ t.err = s.err ∧ t.errcode = s.errcode ∧ t.errinfo = s.errinfo)
      ∨ (t.err = true ∧ t.done = s.done ∧ t.result = 0 ∧ t.result1 = 0 ∧ ∃ code ∈ [1, 2, 3, 5, 6, 7, 10],
        t.errcode = BitVec.ofNat 32 (code + 256 * (encode i).toNat.shiftRight 28
          + 4096 * ((encode i).toNat.shiftRight 24 % 16)))))
  ∧ ∀ s : State, SafeStep s

/-- 60_exceptions.md R510, R511.1: an UnsupportedVariant, BadOperand, OutOfBounds or SequenceError changes nothing beyond the
registers of the abort. -/
def Obligations.PreCheckErrorLeavesState : Prop :=
  ∀ (i : Instr) (s t : State), s.err = false → exec i s = .next t → t.err = true →
    t.errcode.toNat % 256 ∈ [3, 5, 6, 10] →
    t = { s with
      busy := false, err := true, errcode := t.errcode, errinfo := t.errinfo, result := 0, result1 := 0, tainted := false,
      draws := t.draws }

/-- 60_exceptions.md R503: a command on a unit that is not ready raises SequenceError with UNITSTAT and changes nothing beyond the
registers of the abort, each case of the rule's list. -/
def Obligations.UnreadyUnitIsRefused : Prop :=
  ∀ s : State,
    (s.qs.valid = false → exec .qsReset s = .next (s.aborted 3 1 10 s.unitstat)
      ∧ exec .qsGetsym s = .next (s.aborted 3 2 10 s.unitstat) ∧ exec .qsGetfreq s = .next (s.aborted 3 3 10 s.unitstat)
      ∧ exec .qsUpdate s = .next (s.aborted 3 4 10 s.unitstat) ∧ exec .rcDecode s = .next (s.aborted 2 4 10 s.unitstat))
    ∧ (s.rc.st ≠ .decoding → exec .rcNormalize s = .next (s.aborted 2 3 10 s.unitstat)
      ∧ (∀ shift, exec (.rcCulshift shift) s = .next (s.aborted 2 1 10 s.unitstat))
      ∧ exec .rcUpdate s = .next (s.aborted 2 2 10 s.unitstat))
    ∧ (s.huf.valid = false → exec .hufGetcode s = .next (s.aborted 4 1 10 s.unitstat)
      ∧ exec .hufSetctx s = .next (s.aborted 4 2 10 s.unitstat))
    ∧ (s.lz.valid = false → exec (.lzDecompress 0) s = .next (s.aborted 6 1 10 s.unitstat)
      ∧ exec (.lzDecompress 2) s = .next (s.aborted 6 1 10 s.unitstat))
    ∧ (s.lz.w ≠ 4096 → exec (.lzDecompress 2) s = .next (s.aborted 6 1 10 s.unitstat))
    ∧ (s.cam.keyed = false → exec .camDecblk s = .next (s.aborted 7 1 10 s.unitstat)
      ∧ exec .camDecrange s = .next (s.aborted 7 2 10 s.unitstat))
    ∧ (s.neko.keyed = false → exec .nekoDecrypt s = .next (s.aborted 8 2 10 s.unitstat))

/-- 20_memory.md R104, 60_exceptions.md R515: each ready command with legal operands whose source or destination span fails its check,
the source first, raises OutOfBounds with that span's base and has no other effect, GOL_DECODE also when its last output lies
outside the destination span (R320); of the bit reader BR_GETBIT (R171) stands here and the others in `BrReadsBits`. The operand
checks of RC_CULSHIFT (R207), GOL_DECODE (R320), QS_GETFREQ (R224) and QS_UPDATE (R225). -/
def Obligations.BadSpanOrOperandIsRefused : Prop :=
  ∀ s : State,
    (s.srcInBounds = true ↔
      s.src.base.toNat + s.src.len.toNat ≤ s.cfg.bufSize ∧ s.src.pos.toNat ≤ 8 * s.src.len.toNat)
    ∧ (s.dstInBounds = true ↔ s.dst.base.toNat + s.dst.len.toNat ≤ s.cfg.bufSize ∧ s.dst.pos.toNat ≤ s.dst.len.toNat)
    ∧ (s.srcInBounds = false →
      exec .rcStart s = .next (s.aborted 2 0 6 s.src.base) ∧ exec .golGamma s = .next (s.aborted 5 0 6 s.src.base)
      ∧ exec .golRunlen s = .next (s.aborted 5 1 6 s.src.base) ∧ exec .golValue s = .next (s.aborted 5 2 6 s.src.base)
      ∧ exec (.lzDecompress 1) s = .next (s.aborted 6 1 6 s.src.base)
      ∧ exec .brGetbit s = .next (s.aborted 1 1 6 s.src.base)
      ∧ (s.lz.valid = true → exec (.lzDecompress 0) s = .next (s.aborted 6 1 6 s.src.base))
      ∧ (s.lz.valid = true → s.lz.w = 4096 → exec (.lzDecompress 2) s = .next (s.aborted 6 1 6 s.src.base))
      ∧ (s.rc.st = .decoding → exec .rcNormalize s = .next (s.aborted 2 3 6 s.src.base)
        ∧ ∀ shift : BitVec 5, 1 ≤ shift.toNat → shift.toNat ≤ 16 →
          exec (.rcCulshift shift) s = .next (s.aborted 2 1 6 s.src.base))
      ∧ (s.qs.valid = true → exec .rcDecode s = .next (s.aborted 2 4 6 s.src.base))
      ∧ (s.huf.valid = true → exec .hufGetcode s = .next (s.aborted 4 1 6 s.src.base))
      ∧ (s.arg 0 ≠ 0 → s.arg 1 ≠ 0 → exec .golDecode s = .next (s.aborted 5 4 6 s.src.base)))
    ∧ (s.srcInBounds = true → s.dstInBounds = false →
      exec (.lzDecompress 1) s = .next (s.aborted 6 1 6 s.dst.base)
      ∧ (s.lz.valid = true → exec (.lzDecompress 0) s = .next (s.aborted 6 1 6 s.dst.base))
      ∧ (s.lz.valid = true → s.lz.w = 4096 → exec (.lzDecompress 2) s = .next (s.aborted 6 1 6 s.dst.base))
      ∧ (s.qs.valid = true → exec .rcDecode s = .next (s.aborted 2 4 6 s.dst.base))
      ∧ (s.arg 0 ≠ 0 → s.arg 1 ≠ 0 → exec .golDecode s = .next (s.aborted 5 4 6 s.dst.base)))
    ∧ (s.srcInBounds = true → s.dstInBounds = true → s.arg 0 ≠ 0 → s.arg 1 ≠ 0 →
      s.dst.len.toNat ≤ s.dst.pos.toNat + ((s.arg 0).toNat - 1) * (s.arg 1).toNat →
      exec .golDecode s = .next (s.aborted 5 4 6 s.dst.base))
    ∧ (∀ shift : BitVec 5, s.rc.st = .decoding → shift = 0 ∨ 16 < shift.toNat →
      exec (.rcCulshift shift) s = .next (s.aborted 2 1 5 (shift.setWidth 32)))
    ∧ (s.arg 0 ≠ 0 → s.arg 1 = 0 → exec .golDecode s = .next (s.aborted 5 4 5 0))
    ∧ (s.qs.valid = true → 256 < (s.arg 0).toNat → exec .qsGetfreq s = .next (s.aborted 3 3 5 (s.arg 0))
      ∧ exec .qsUpdate s = .next (s.aborted 3 4 5 (s.arg 0)))

/-- 60_exceptions.md R511.2, R516: an error of any kind moves the cursors only within their spans, changes BUF only inside the
destination span from DST_POS on, and leaves each unit as it was or invalid (Golomb's context and the transform arrays, which have
no such flag, aside; which units a command may touch is `FrameOfOtherUnits`); an execution error does make the units of its
command invalid. That HUF_ORDER1 is kept is the model's reading of R511.2 (log 23). -/
def Obligations.ErrorIsConfined : Prop :=
  ∀ (i : Instr) (s t : State), s.err = false → exec i s = .next t → t.err = true →
    (t.src.pos = s.src.pos ∨ (s.src.pos.toNat ≤ t.src.pos.toNat ∧ t.src.pos.toNat ≤ 8 * s.src.len.toNat))
    ∧ (t.dst.pos = s.dst.pos ∨ (s.dst.pos.toNat ≤ t.dst.pos.toNat ∧ t.dst.pos.toNat ≤ s.dst.len.toNat))
    ∧ (∀ a, a < s.dst.base.toNat + s.dst.pos.toNat ∨ s.dst.base.toNat + s.dst.len.toNat ≤ a → t.buf.get a = s.buf.get a)
    ∧ t.lsb = s.lsb ∧ t.cam = s.cam ∧ t.neko = s.neko
    ∧ (t.rc = s.rc ∨ t.rc.st = .idle) ∧ (t.qs = s.qs ∨ t.qs.valid = false)
    ∧ (t.huf = s.huf ∨ (t.huf.valid = false ∧ t.huf.order1 = s.huf.order1)) ∧ (t.lz = s.lz ∨ t.lz.valid = false)
    ∧ (t.errcode.toNat % 256 ∈ [1, 2, 7] →
      (i = .rcStart ∨ i = .rcNormalize ∨ i = .rcDecode ∨ (∃ shift, i = .rcCulshift shift) → t.rc.st = .idle)
      ∧ (i = .rcDecode → t.qs.valid = false) ∧ (i = .hufGetcode → t.huf.valid = false)
      ∧ ((∃ v, i = .lzDecompress v) → t.lz.valid = false))

/-! ## Frames -/

/-- 10_state.md R34, R35, 60_exceptions.md R505: a command that stores nothing leaves every byte of BUF and the destination cursor;
one that reads no source leaves the source cursor; one that names no result and completes leaves the results. -/
def Obligations.FrameOfNonStoringCommands : Prop :=
  ∀ (i : Instr) (s t : State), exec i s = .next t →
    (storing i = false → (∀ a, t.buf.get a = s.buf.get a) ∧ t.dst = s.dst)
    ∧ (movesSource i = false → t.src = s.src)
    ∧ (s.err = false → t.err = false →
      (namesResult i = false → t.result = s.result) ∧ (namesResult1 i = false → t.result1 = s.result1))

/-- 10_state.md R50: a command leaves the state of every unit but its own, RC_DECODE aside, which runs RC and QS, and SRST_UNIT,
whose effect is stated on its own. -/
def Obligations.FrameOfOtherUnits : Prop :=
  ∀ (i : Instr) (s t : State), (∀ u, i ≠ .srstUnit u) → exec i s = .next t →
    ((∀ l, i ≠ .brInit l) → t.lsb = s.lsb)
    ∧ ((encode i).toNat / 2 ^ 28 ≠ 2 → t.rc = s.rc)
    ∧ ((encode i).toNat / 2 ^ 28 ≠ 3 → i ≠ .rcDecode → t.qs = s.qs)
    ∧ ((encode i).toNat / 2 ^ 28 ≠ 4 → t.huf = s.huf)
    ∧ ((encode i).toNat / 2 ^ 28 ≠ 5 → t.gol = s.gol)
    ∧ ((encode i).toNat / 2 ^ 28 ≠ 6 → t.lz = s.lz)
    ∧ ((encode i).toNat / 2 ^ 28 ≠ 7 → t.cam = s.cam)
    ∧ ((encode i).toNat / 2 ^ 28 ≠ 8 → t.neko = s.neko)
    ∧ ((encode i).toNat / 2 ^ 28 ≠ 9 → t.xf = s.xf)

/-- 20_memory.md R104, R109, R112, 60_exceptions.md R505, R511: RC_DECODE and LZ_DECOMPRESS store inside the destination span from
DST_POS on, up to the new DST_POS when they complete; GOL_DECODE stores its strided outputs (R320) and leaves DST_POS, after an
error too, although R511.2 speaks of every DST_POS (log 21); the commands that address BUF through ARGi (45_camellia.md R393,
R394, 46_nekopack.md R424, 47_transform.md R447, R470, R475) leave every byte outside the ones their rule names. -/
def Obligations.FrameOfStores : Prop :=
  (∀ (i : Instr) (s t : State), (i = .rcDecode ∨ ∃ v, i = .lzDecompress v) → exec i s = .next t →
    (∀ a, a < s.dst.base.toNat + s.dst.pos.toNat ∨ s.dst.base.toNat + s.dst.len.toNat ≤ a → t.buf.get a = s.buf.get a)
    ∧ (s.err = false → t.err = false → s.dst.pos.toNat ≤ t.dst.pos.toNat
      ∧ ∀ a, s.dst.base.toNat + t.dst.pos.toNat ≤ a → t.buf.get a = s.buf.get a))
  ∧ (∀ s t : State, exec .golDecode s = .next t →
    t.dst = s.dst
    ∧ ∀ a, (∀ j < (s.arg 0).toNat, a ≠ s.dst.base.toNat + s.dst.pos.toNat + j * (s.arg 1).toNat) →
      t.buf.get a = s.buf.get a)
  ∧ (∀ s t : State, exec .camDecblk s = .next t →
    ∀ a, a < (s.arg 4).toNat ∨ (s.arg 4).toNat + 16 ≤ a → t.buf.get a = s.buf.get a)
  ∧ (∀ s t : State, exec .camDecrange s = .next t →
    ∀ a, a < (s.arg 4).toNat ∨ (s.arg 4).toNat + (s.arg 7).toNat / 16 * 16 ≤ a → t.buf.get a = s.buf.get a)
  ∧ (∀ s t : State, exec .nekoDecrypt s = .next t →
    ∀ a, a < (s.arg 2).toNat ∨ (s.arg 2).toNat + (s.arg 3).toNat / 8 * 8 ≤ a → t.buf.get a = s.buf.get a)
  ∧ (∀ (d : BitVec 4) (s t : State), exec (.xfStoref d) s = .next t →
    ∀ a, a < (s.arg 0).toNat ∨ (s.arg 0).toNat + 4 * 2 ^ d.toNat ≤ a → t.buf.get a = s.buf.get a)
  ∧ (∀ (d : BitVec 4) (s t : State), exec (.xfStore16 d) s = .next t → ∀ a : Nat,
    (∀ i < 2 ^ d.toNat, (a : Int) ≠ (s.arg 0).toNat + (s.arg 1).toInt * i
      ∧ (a : Int) ≠ (s.arg 0).toNat + (s.arg 1).toInt * i + 1) → t.buf.get a = s.buf.get a)
  ∧ (∀ (d : BitVec 4) (s t : State), exec (.xfRestore d) s = .next t → ∀ a : Nat,
    (∀ i < 2 ^ d.toNat, (a : Int) ≠ (s.arg 3).toNat + (s.arg 4).toInt * i
      ∧ (a : Int) ≠ (s.arg 3).toNat + (s.arg 4).toInt * i + 1) → t.buf.get a = s.buf.get a)

/-! ## Units 0 and 1 -/

/-- 40_sys_bitreader.md R160, R172, 43_golomb_gamma.md R317, 45_camellia.md R390, 46_nekopack.md R422, R423: the commands without
a check complete from every state with their one effect, NEKO_SETHASH with whatever function NEKO_KEYMIX is. R161, R162: SRST_UNIT
resets the one unit, or every unit for 15, touches nothing else, and refuses 10 to 14. -/
def Obligations.UncheckedCommandsAndSrstUnit : Prop :=
  (∀ s : State,
      exec .nop s = .next s.finished
      ∧ (∀ l : BitVec 1, exec (.brInit l) s = .next { s with lsb := l == 1 }.finished)
      ∧ exec .golResetctx s = .next { s with gol := ⟨0, 3⟩ }.finished
      ∧ (∀ k : BitVec 128, k = s.arg 0 ++ s.arg 1 ++ s.arg 2 ++ s.arg 3 →
        exec .camSetkey s = .next { s with cam := ⟨true, k, camDerive k⟩ }.finished)
      ∧ exec .nekoSetkey64 s = .next { s with neko := ⟨true, s.arg 1 ++ s.arg 0⟩ }.finished
      ∧ exec .nekoSethash s = .next { s with neko := ⟨true, Config.nekoKeymix (s.arg 0)⟩ }.finished)
  ∧ ∀ (s : State) (u : BitVec 4),
    (u.toNat ≤ 9 ∨ u.toNat = 15 → ∃ t, exec (.srstUnit u) s = .next t
      ∧ t = { s with
        busy := false, done := true, tainted := false, lsb := t.lsb, rc := t.rc, qs := t.qs, huf := t.huf, gol := t.gol,
        lz := t.lz, cam := t.cam, neko := t.neko, xf := t.xf, draws := t.draws }
      ∧ (if u = 1 ∨ u = 15 then t.lsb = false else t.lsb = s.lsb)
      ∧ (if u = 2 ∨ u = 15 then t.rc = ⟨0, 0, 0, 0, .idle⟩ else t.rc = s.rc)
      ∧ (if u = 3 ∨ u = 15 then t.qs.valid = false ∧ t.qs.lgTotf = 0 ∧ t.qs.shift = 0 ∧ t.qs.target = 0 ∧ t.qs.rescale = 0
        ∧ t.qs.incr = 0 ∧ t.qs.left = 0 ∧ t.qs.nextleft = 0 else t.qs = s.qs)
      ∧ (if u = 4 ∨ u = 15 then t.huf.valid = false ∧ t.huf.order1 = false ∧ t.huf.last = 0 else t.huf = s.huf)
      ∧ (if u = 5 ∨ u = 15 then t.gol = ⟨0, 3⟩ else t.gol = s.gol)
      ∧ (if u = 6 ∨ u = 15 then t.lz.valid = false ∧ t.lz.r = 0 ∧ t.lz.w = 0 ∧ t.lz.fill = 0 else t.lz = s.lz)
      ∧ (if u = 7 ∨ u = 15 then t.cam.keyed = false else t.cam = s.cam)
      ∧ (if u = 8 ∨ u = 15 then t.neko = ⟨false, 0⟩ else t.neko = s.neko)
      ∧ t.xf.xq = s.xf.xq ∧ t.xf.xw = s.xf.xw ∧ t.xf.xa = s.xf.xa ∧ t.xf.xt = s.xf.xt
      ∧ (if u = 9 ∨ u = 15 then ∀ i, t.xf.xc.get i = 0 else t.xf.xc = s.xf.xc))
    ∧ (10 ≤ u.toNat ∧ u.toNat ≤ 14 → exec (.srstUnit u) s = .next (s.aborted 0 1 5 (u.setWidth 32)))

/-- 40_sys_bitreader.md R171, R173, R174, 20_memory.md R106, R107: BR_GETBITS reads the field at the cursor in the order of BR_LSB,
and BR_GETBIT its one bit; too short a source is refused before any bit is consumed, and RESULT is then 0, as R510 has it and
R173 and R174 do not (log 13); so are `n > 32`, checked before the span (log 12), and a span outside BUF. R175, R176: BR_PEEKBITS
answers the next bits, zeros past the end, and how many are valid, and leaves the cursor; its checks come in the same order
(log 12). BR_ALIGN moves the cursor up to the next byte boundary, which is inside the span, and answers by how much. -/
def Obligations.BrReadsBits : Prop :=
  (∀ (s : State) (n : BitVec 6),
      (n.toNat ≤ 32 → s.srcInBounds = true → s.src.pos.toNat + n.toNat ≤ 8 * s.src.len.toNat →
        exec (.brGetbits n) s = .next (((s.atBit (s.src.pos.toNat + n.toNat)).setResult
          (BitVec.ofNat 32 (s.srcField s.src.pos.toNat n.toNat))).finished)
        ∧ s.srcField s.src.pos.toNat n.toNat < 2 ^ n.toNat)
      ∧ (n.toNat ≤ 32 → s.srcInBounds = true → 8 * s.src.len.toNat < s.src.pos.toNat + n.toNat →
        exec (.brGetbits n) s = .next (s.aborted 1 2 2 s.src.pos))
      ∧ (n.toNat ≤ 32 → s.srcInBounds = false → exec (.brGetbits n) s = .next (s.aborted 1 2 6 s.src.base))
      ∧ (32 < n.toNat → exec (.brGetbits n) s = .next (s.aborted 1 2 5 (n.setWidth 32)))
      ∧ (s.srcInBounds = true → s.src.pos.toNat < 8 * s.src.len.toNat →
        exec .brGetbit s = .next (((s.atBit (s.src.pos.toNat + 1)).setResult
          (BitVec.ofNat 32 (s.srcBitAt s.src.pos.toNat))).finished))
      ∧ (s.srcInBounds = true → s.src.pos.toNat = 8 * s.src.len.toNat →
        exec .brGetbit s = .next (s.aborted 1 1 2 s.src.pos))
      ∧ (s.srcInBounds = false → exec .brGetbit s = .next (s.aborted 1 1 6 s.src.base)))
  ∧ ∀ s : State,
    (∀ n : BitVec 6, n.toNat ≤ 32 → s.srcInBounds = true → exec (.brPeekbits n) s = .next (((s.setResult (BitVec.ofNat 32
        (fieldValue s.lsb n.toNat (fun i => if s.src.pos.toNat + i < 8 * s.src.len.toNat then s.srcBitAt (s.src.pos.toNat + i)
          else 0)))).setResult1 (BitVec.ofNat 32 (min n.toNat (8 * s.src.len.toNat - s.src.pos.toNat)))).finished))
    ∧ (∀ n : BitVec 6, n.toNat ≤ 32 → s.srcInBounds = false → exec (.brPeekbits n) s = .next (s.aborted 1 3 6 s.src.base))
    ∧ (∀ n : BitVec 6, 32 < n.toNat → exec (.brPeekbits n) s = .next (s.aborted 1 3 5 (n.setWidth 32)))
    ∧ (s.srcInBounds = true → ∃ p, s.src.pos.toNat ≤ p ∧ p < s.src.pos.toNat + 8 ∧ p % 8 = 0 ∧ p ≤ 8 * s.src.len.toNat
      ∧ exec .brAlign s = .next (((s.atBit p).setResult (BitVec.ofNat 32 (p - s.src.pos.toNat))).finished))
    ∧ (s.srcInBounds = false → exec .brAlign s = .next (s.aborted 1 4 6 s.src.base))

/-! ## Units 2 and 3 -/

/-- 41_range_coder.md R204, R205: RC_START reads two bytes, answers the first and starts the coder from the second. -/
def Obligations.RcStartPrimes : Prop :=
  ∀ (s : State) (c b : Byte), s.srcInBounds = true → s.holdsBytes s.nextByte [c, b] →
    exec .rcStart s = .next ((({ s with rc := ⟨(b >>> (8 - s.cfg.rcExtraBits)).setWidth 32,
      BitVec.ofNat 32 (2 ^ s.cfg.rcExtraBits), 0, b, .decoding⟩ }.atBit (8 * s.nextByte + 16)).setResult
        (c.setWidth 32)).finished)

/-- 41_range_coder.md R202, R203, R206, R207: from a nonzero range at most three iterations end the loop, each multiplying the range
by 256. Where the source holds the bytes of the fewest iterations that end it, RC_NORMALIZE consumes those and answers their number;
RC_CULSHIFT normalises so and answers the quotient of LOW by the new HELP, which is not 0, capped below `2^shift`. From a
range of 0 both consume the whole source and raise TruncatedInput; that any source that ends before the loop does so is
`ShortOrOverlongCodesAreRefused`. -/
def Obligations.RcNormalizeAndCulshift : Prop :=
  ∀ s : State, s.rc.st = .decoding → s.srcInBounds = true →
    (s.rc.range ≠ 0 → ∃ n ≤ 3, (s.rcAfter n).range.toNat = s.rc.range.toNat * 256 ^ n
      ∧ rcNeed s.rcCfg (s.rcAfter n) = false ∧ ∀ m < n, rcNeed s.rcCfg (s.rcAfter m) = true)
    ∧ (∀ n, rcNeed s.rcCfg (s.rcAfter n) = false → (∀ m < n, rcNeed s.rcCfg (s.rcAfter m) = true) →
      s.nextByte + n ≤ s.src.len.toNat →
      exec .rcNormalize s = .next ((({ s with rc := s.rcAfter n }.atBit
        (if n = 0 then s.src.pos.toNat else 8 * (s.nextByte + n))).setResult (BitVec.ofNat 32 n)).finished)
      ∧ ∀ shift : BitVec 5, 1 ≤ shift.toNat → shift.toNat ≤ 16 →
        (s.rcAfter n).range >>> shift.toNat ≠ 0
        ∧ exec (.rcCulshift shift) s = .next ((({ s with rc := { s.rcAfter n with
            help := (s.rcAfter n).range >>> shift.toNat } }.atBit
          (if n = 0 then s.src.pos.toNat else 8 * (s.nextByte + n))).setResult (BitVec.ofNat 32
            (min ((s.rcAfter n).low.toNat / ((s.rcAfter n).range.toNat / 2 ^ shift.toNat)) (2 ^ shift.toNat - 1)))).finished))
    ∧ (s.rc.range = 0 →
      raises .rcNormalize s 2 3 2 (BitVec.ofNat 32 (8 * s.src.len.toNat))
      ∧ ∀ shift : BitVec 5, 1 ≤ shift.toNat → shift.toNat ≤ 16 →
        raises (.rcCulshift shift) s 2 1 2 (BitVec.ofNat 32 (8 * s.src.len.toNat)))

/-- 41_range_coder.md R208: RC_UPDATE narrows the interval, the last symbol taking all that remains; it requires Decoding, then a
legal triple, sums taken without wrap-around. -/
def Obligations.RcUpdateNarrows : Prop :=
  encode .rcUpdate = 0x22000000 ∧ ∀ s : State,
    (s.rc.st ≠ .decoding → exec .rcUpdate s = .next (s.aborted 2 2 10 s.unitstat))
    ∧ (s.rc.st = .decoding →
      s.arg 0 = 0 ∨ 65536 < (s.arg 2).toNat ∨ (s.arg 2).toNat < (s.arg 1).toNat + (s.arg 0).toNat →
      exec .rcUpdate s = .next (s.aborted 2 2 5 (s.arg 0)))
    ∧ (s.rc.st = .decoding → s.arg 0 ≠ 0 → (s.arg 2).toNat ≤ 65536 →
      (s.arg 1).toNat + (s.arg 0).toNat ≤ (s.arg 2).toNat →
      exec .rcUpdate s = .next { s with rc := { s.rc with
        low := s.rc.low - s.rc.help * s.arg 1
        range := if (s.arg 1).toNat + (s.arg 0).toNat < (s.arg 2).toNat then s.rc.help * s.arg 0
          else s.rc.range - s.rc.help * s.arg 1 } }.finished)

/-- 41_range_coder.md R230, R231, 20_memory.md R110: RC_DECODE does what RC_START, QS_RESET and then, for each symbol, RC_CULSHIFT by
LG_TOTF, QS_GETSYM, QS_GETFREQ, RC_UPDATE and QS_UPDATE do: up to the terminal symbol it stores the symbols they decode; a further
symbol with no room left is DestinationFull, a source that ends in between TruncatedInput. A stream of ones decodes the terminal
symbol at once, stores nothing, answers 0 and the first byte, and is Done; with no room RC_DECODE reads nothing and changes nothing
but RESULT. -/
def Obligations.RcDecodeRunsItsPrimitives : Prop :=
  (∀ (s u : State) (bytes : List Byte), s.calm → s.err = false → s.qs.valid = true → s.qs.Good → s.srcInBounds = true →
    s.dstInBounds = true → s.dst.pos ≠ s.dst.len → bytes.length ≤ s.dst.len.toNat - s.dst.pos.toNat →
    ((s.run .rcStart).run .qsReset).rcReads bytes u → u.err = false →
    (u.rcTurn.1 = 256 → u.rcTurn.2.err = false → ∃ t, exec .rcDecode s = .next t
      ∧ t = ((({ s with
          rc := { u.rcTurn.2.rc with st := .done }
          qs := u.qs
          buf := t.buf
          dst := { s.dst with pos := s.dst.pos + BitVec.ofNat 32 bytes.length } }.atBit u.rcTurn.2.src.pos.toNat).setResult
            (BitVec.ofNat 32 bytes.length)).setResult1 (s.run .rcStart).result).finished
      ∧ (∀ i, (h : i < bytes.length) → t.buf.get (s.dst.base.toNat + s.dst.pos.toNat + i) = bytes[i])
      ∧ ∀ a, a < s.dst.base.toNat + s.dst.pos.toNat ∨ s.dst.base.toNat + s.dst.pos.toNat + bytes.length ≤ a →
        t.buf.get a = s.buf.get a)
    ∧ (u.rcTurn.1 ≠ 256 → u.rcTurn.2.err = false → bytes.length = s.dst.len.toNat - s.dst.pos.toNat →
      raises .rcDecode s 2 4 7 s.dst.len)
    ∧ (u.culshiftRun.err = true → raises .rcDecode s 2 4 2 u.culshiftRun.errinfo))
  ∧ (∀ (s : State) (c : Byte), s.calm → s.qs.valid = true → s.qs.Good → s.srcInBounds = true → s.dstInBounds = true →
    s.dst.pos ≠ s.dst.len → s.holdsBytes s.nextByte [c, 0xFF, 0xFF, 0xFF, 0xFF] →
    ∃ k ≤ 3, ∃ t, exec .rcDecode s = .next t
      ∧ t = ((({ s with rc := t.rc, qs := t.qs }.atBit (8 * (s.nextByte + 2 + k))).setResult 0).setResult1
        (c.setWidth 32)).finished
      ∧ t.rc.st = .done ∧ t.qs.Fresh s.qs.lgTotf.toNat s.qs.target.toNat)
  ∧ (∀ s : State, s.calm → s.qs.valid = true → s.srcInBounds = true → s.dstInBounds = true → s.dst.pos = s.dst.len →
    exec .rcDecode s = .next (s.setResult 0).finished)

/-- 41_range_coder.md R216, R217, R220, R221: QS_INIT builds the model of equal frequencies for a legal total and target, and
refuses others, the total first; QS_RESET brings a good model back to the one QS_INIT built for its total and target. -/
def Obligations.QsInitAndResetBuildModel : Prop :=
  ∀ s : State,
    (∀ lg : BitVec 4, 9 ≤ lg.toNat → 1 ≤ (s.arg 0).toNat → (s.arg 0).toNat ≤ 65535 → ∃ t, exec (.qsInit lg) s = .next t
      ∧ t = { s with qs := t.qs }.finished ∧ t.qs.Fresh lg.toNat (s.arg 0).toNat ∧ t.qs.Good)
    ∧ (∀ lg : BitVec 4, lg.toNat < 9 → exec (.qsInit lg) s = .next (s.aborted 3 0 5 (lg.setWidth 32)))
    ∧ (∀ lg : BitVec 4, 9 ≤ lg.toNat → s.arg 0 = 0 ∨ 65535 < (s.arg 0).toNat →
      exec (.qsInit lg) s = .next (s.aborted 3 0 5 (s.arg 0)))
    ∧ (s.qs.valid = true → s.qs.Good → ∃ t, exec .qsReset s = .next t ∧ t = { s with qs := t.qs }.finished
      ∧ t.qs.Fresh s.qs.lgTotf.toNat s.qs.target.toNat ∧ t.qs.Good)

/-- 41_range_coder.md R223, R226: in a good model QS_GETSYM answers the one symbol whose interval holds the target. -/
def Obligations.QsGetsymFindsInterval : Prop :=
  ∀ s : State,
    (s.qs.valid = true → s.qs.Good → (s.arg 0).toNat < 2 ^ s.qs.lgTotf.toNat → ∃ sym ≤ 256,
      (s.qs.cf.get sym).toNat ≤ (s.arg 0).toNat ∧ (s.arg 0).toNat < (s.qs.cf.get (sym + 1)).toNat
      ∧ exec .qsGetsym s = .next (s.setResult (BitVec.ofNat 32 sym)).finished)
    ∧ (s.qs.valid = true → (s.qs.cf.get 257).toNat ≤ (s.arg 0).toNat →
      exec .qsGetsym s = .next (s.aborted 3 2 5 (s.arg 0)))
    ∧ (s.qs.valid = false → exec .qsGetsym s = .next (s.aborted 3 2 10 s.unitstat))

/-- 41_range_coder.md R216, R224, R225: QS_GETFREQ answers a symbol's frequency and the sum below it; QS_UPDATE counts a symbol,
starts the second part of a rescale period, or rescales a good model: every collected count becomes the frequency in use and is
halved, what the halving freed is shared out over the next period (INCR a symbol, one more for the last NEXTLEFT of it), and each
search bucket points at the symbol of its first target. -/
def Obligations.QsGetfreqAndUpdate : Prop :=
  ∀ s : State, s.qs.valid = true → (s.arg 0).toNat ≤ 256 →
    exec .qsGetfreq s = .next (((s.setResult ((s.qs.cf.get ((s.arg 0).toNat + 1) - s.qs.cf.get (s.arg 0).toNat).setWidth
      32)).setResult1 ((s.qs.cf.get (s.arg 0).toNat).setWidth 32)).finished)
    ∧ (s.qs.left ≠ 0 → exec .qsUpdate s = .next { s with qs := { s.qs with
        left := s.qs.left - 1
        newf := s.qs.newf.set (s.arg 0).toNat (s.qs.newf.get (s.arg 0).toNat + s.qs.incr) } }.finished)
    ∧ (s.qs.left = 0 → s.qs.nextleft ≠ 0 → exec .qsUpdate s = .next { s with qs := { s.qs with
        left := s.qs.nextleft - 1
        nextleft := 0
        incr := s.qs.incr + 1
        newf := s.qs.newf.set (s.arg 0).toNat (s.qs.newf.get (s.arg 0).toNat + (s.qs.incr + 1)) } }.finished)
    ∧ (s.qs.left = 0 → s.qs.nextleft = 0 → s.qs.Good → ∃ t, exec .qsUpdate s = .next t
      ∧ t = { s with qs := { s.qs with
          cf := t.qs.cf
          newf := t.qs.newf
          search := t.qs.search
          rescale := t.qs.rescale
          incr := t.qs.incr
          left := t.qs.left
          nextleft := t.qs.nextleft } }.finished
      ∧ (∀ i ≤ 257, (t.qs.cf.get i).toNat = ((List.range i).map (fun j => (s.qs.newf.get j).toNat)).sum)
      ∧ (∀ i ≤ 256, (t.qs.newf.get i).toNat
        = ((s.qs.newf.get i).toNat / 2 ||| 1) + if i = (s.arg 0).toNat then t.qs.incr.toNat else 0)
      ∧ t.qs.rescale.toNat = (if s.qs.rescale.toNat < s.qs.target.toNat
        then min (2 * s.qs.rescale.toNat) s.qs.target.toNat else s.qs.rescale.toNat)
      ∧ (∀ missing, missing = (s.qs.cf.get 257).toNat
          - ((List.range 257).map (fun i => (s.qs.newf.get i).toNat / 2 ||| 1)).sum →
        t.qs.incr.toNat = missing / t.qs.rescale.toNat ∧ t.qs.nextleft.toNat = missing % t.qs.rescale.toNat
        ∧ t.qs.left.toNat + 1 = t.qs.rescale.toNat - t.qs.nextleft.toNat)
      ∧ ∀ b < 128, (t.qs.search.get b).toNat ≤ 256
        ∧ (t.qs.cf.get (t.qs.search.get b).toNat).toNat ≤ b * 2 ^ s.qs.shift.toNat
        ∧ b * 2 ^ s.qs.shift.toNat < (t.qs.cf.get ((t.qs.search.get b).toNat + 1)).toNat)

/-! ## Unit 4 -/

/-- 42_huffman.md R262, R270, R281: HUF_INIT empties every tree; HUF_SETCTX sets the context alone, requires HUF_VALID and refuses
a context above 255. -/
def Obligations.HufInitAndSetctx : Prop :=
  ∀ s : State,
    (∀ o : BitVec 1, ∃ t, exec (.hufInit o) s = .next t ∧ t = { s with huf := t.huf }.finished ∧ t.huf.valid = true
      ∧ t.huf.order1 = (o == 1) ∧ t.huf.last = 0
      ∧ ∀ k : Fin 256, t.huf.trees[k].esc = 0x8000 ∧ t.huf.trees[k].tp = 0x200 ∧ t.huf.trees[k].c.get 0x200 = 0x8000
        ∧ t.huf.trees[k].p.get 0x200 = 0x8000 ∧ (∀ i, t.huf.trees[k].w.get i = 0)
        ∧ (∀ i < 0x200, t.huf.trees[k].c.get i = 0 ∧ t.huf.trees[k].p.get i = 0)
        ∧ ∀ i < 256, t.huf.trees[k].sym.get i = 0x8000)
    ∧ (s.huf.valid = true → (s.arg 0).toNat ≤ 255 →
      exec .hufSetctx s = .next { s with huf := { s.huf with last := (s.arg 0).setWidth 8 } }.finished)
    ∧ (s.huf.valid = true → 255 < (s.arg 0).toNat → exec .hufSetctx s = .next (s.aborted 4 2 5 (s.arg 0)))
    ∧ (s.huf.valid = false → exec .hufSetctx s = .next (s.aborted 4 2 10 s.unitstat))

/-- 42_huffman.md R266, R268, R280: the first code of an empty tree is a bare literal of 8 bits; the tree, tree 0 or the context's,
becomes the literal's leaf, the escape leaf and the root over them; no other tree changes. -/
def Obligations.HufFirstCodeIsLiteral : Prop :=
  ∀ (s : State) (k : Fin 256) (v : Byte), s.huf.valid = true → s.srcInBounds = true →
    k.val = (if s.huf.order1 then s.huf.last.toNat else 0) → s.huf.trees[k] = emptyTree →
    s.src.pos.toNat + 8 ≤ 8 * s.src.len.toNat → s.srcField s.src.pos.toNat 8 = v.toNat →
    ∃ t, exec .hufGetcode s = .next t
      ∧ t = ((({ s with huf := { s.huf with last := v, trees := t.huf.trees } }.atBit (s.src.pos.toNat + 8)).setResult
        (v.setWidth 32)).setResult1 1).finished
      ∧ (∀ j : Fin 256, j ≠ k → t.huf.trees[j] = s.huf.trees[j])
      ∧ t.huf.trees[k].tp = 0x1FE ∧ t.huf.trees[k].esc = 0x1FF
      ∧ t.huf.trees[k].c.get 0x1FE = 0x80000000 + v.setWidth 32 ∧ t.huf.trees[k].c.get 0x1FF = 0xFFFFFFFF
      ∧ t.huf.trees[k].c.get 0x200 = 0x1FE ∧ t.huf.trees[k].w.get 0x1FE = 1 ∧ t.huf.trees[k].w.get 0x1FF = 1
      ∧ t.huf.trees[k].w.get 0x200 = 2 ∧ t.huf.trees[k].p.get 0x1FE = 0x200 ∧ t.huf.trees[k].p.get 0x1FF = 0x200

/-- 42_huffman.md R265, R266, R268, R280: bits that lead from the root to a symbol's leaf decode to that symbol and increase its
leaf; bits that lead to the escape leaf are followed by an 8-bit literal, which the increased tree takes as a new entry. -/
def Obligations.HufCodeFollowsPath : Prop :=
  ∀ (s : State) (k : Fin 256) (bits : List Nat) (node : Nat), s.huf.valid = true → s.srcInBounds = true →
    k.val = (if s.huf.order1 then s.huf.last.toNat else 0) → s.huf.trees[k].esc ≠ 0x8000 →
    hufPath s.huf.trees[k].c (s.huf.trees[k].c.get 0x200) bits node → s.holdsBits s.src.pos.toNat bits →
    (s.huf.trees[k].c.get node ≠ 0xFFFFFFFF →
      exec .hufGetcode s = .next ((({ s with huf := { s.huf with
          last := (s.huf.trees[k].c.get node).setWidth 8
          trees := s.huf.trees.set k (s.huf.trees[k].increase node) } }.atBit
        (s.src.pos.toNat + bits.length)).setResult
          (((s.huf.trees[k].c.get node).setWidth 8 : Byte).setWidth 32)).setResult1 0).finished)
    ∧ (∀ v : Byte, s.huf.trees[k].c.get node = 0xFFFFFFFF →
      s.src.pos.toNat + bits.length + 8 ≤ 8 * s.src.len.toNat →
      s.srcField (s.src.pos.toNat + bits.length) 8 = v.toNat →
      exec .hufGetcode s = .next ((({ s with huf := { s.huf with
          last := v
          trees := s.huf.trees.set k ((s.huf.trees[k].increase node).addNewEntry v) } }.atBit
        (s.src.pos.toNat + bits.length + 8)).setResult (v.setWidth 32)).setResult1 1).finished)

/-- 42_huffman.md R264 to R267: in a tree that meets R285's items (of item 3 the bound of log 25), Increase adds one to its leaf's
weight, keeps the other leaves and, at the ceiling, halves them all, so that it ends below the ceiling (item 3); HalfAndRebuild keeps the order of the leaves; AddNewEntry adds one leaf of weight 1 and takes
two nodes more, or in a full tree turns the lightest leaf but the escape into the new symbol's. That the items hold again afterwards
is `StepKeepsTrees`. -/
def Obligations.TreeOperationsKeepLeaves : Prop :=
  ∀ t : Tree, t.Filled →
    (∀ e, t.tp.toNat ≤ e → e < 0x200 → (t.c.get e).msb = true →
      (t.weight 0x200 + 1 < 0x4000 →
        (t.increase e).leaves.Perm ((t.c.get e, t.weight e + 1) :: t.leaves.erase (t.c.get e, t.weight e))
        ∧ (t.increase e).weight 0x200 = t.weight 0x200 + 1)
      ∧ (0x4000 ≤ t.weight 0x200 + 1 →
        (t.increase e).leaves.Perm
          (((t.c.get e, t.weight e + 1) :: t.leaves.erase (t.c.get e, t.weight e)).map halveLeaf)
        ∧ (t.increase e).weight 0x200 < 0x4000)
      ∧ (t.increase e).tp = t.tp)
    ∧ t.halfAndRebuild.leaves = t.leaves.map halveLeaf ∧ t.halfAndRebuild.tp = t.tp
    ∧ ∀ v : Byte,
      (t.tp ≠ 0 → (t.addNewEntry v).leaves.Perm ((leafCode v, 1) :: t.leaves)
        ∧ (t.addNewEntry v).tp = t.tp - 2 ∧ (t.addNewEntry v).weight 0x200 = t.weight 0x200 + 1)
      ∧ (t.tp = 0 → ∀ i, i = (if t.c.get 0 = 0xFFFFFFFF then 1 else 0) → (t.addNewEntry v).c.get i = leafCode v
        ∧ (∀ j, j ≠ i → (t.addNewEntry v).c.get j = t.c.get j)
        ∧ ∀ j, (t.addNewEntry v).w.get j = t.w.get j ∧ (t.addNewEntry v).p.get j = t.p.get j)

/-! ## Unit 5 -/

/-- 43_golomb_gamma.md R300, R301, R305, R306: GOL_GAMMA decodes the ERI gamma code, and GOL_RUNLEN the run-length gamma code, of
every value from 1 to 2^32 - 1, and answers its length. -/
def Obligations.GammaCodesDecode : Prop :=
  ∀ (s : State) (v : Nat), 1 ≤ v → v < 2 ^ 32 → s.srcInBounds = true →
    (s.holdsBits s.src.pos.toNat (eriCode v) →
      exec .golGamma s = .next ((((s.atBit (s.src.pos.toNat + (2 * v.log2 + 1))).setResult (BitVec.ofNat 32 v)).setResult1
        (BitVec.ofNat 32 (2 * v.log2 + 1))).finished))
    ∧ (s.holdsBits s.src.pos.toNat (runCode s.lsb v) →
      exec .golRunlen s = .next ((((s.atBit (s.src.pos.toNat + (2 * v.log2 + 1))).setResult (BitVec.ofNat 32 v)).setResult1
        (BitVec.ofNat 32 (2 * v.log2 + 1))).finished))

/-- 43_golomb_gamma.md R316, R318, R319: GOL_VALUE decodes a Golomb-Rice code with the table's bit length, most significant bit
first or, with a one bit in the 32-bit window, least significant first; with an empty window it takes the prefix from the byte
after it. An accumulator out of the table's range is a FormatError that names it, and so are 256 zeros of a prefix, at the cursor
behind them. -/
def Obligations.GolValueDecodesCode : Prop :=
  (∀ s : State, s.srcInBounds = true →
    (1024 ≤ s.gol.a.toNat → raises .golValue s 5 2 1 s.gol.a)
    ∧ (s.gol.a.toNat < 1024 → s.lsb = false → s.holdsBits s.src.pos.toNat (List.replicate 256 0) →
      raises .golValue s 5 2 1 (s.src.pos + 256)))
  ∧ ∀ (s : State) (k v : Nat), s.srcInBounds = true → s.gol.a.toNat < 1024 → isGolombLength s.gol.a.toNat s.gol.n k →
    v / 2 ^ k ≤ 255 →
    ((s.lsb = false ∨ s.src.pos.toNat % 8 + v / 2 ^ k < 32) → s.holdsBits s.src.pos.toNat (golombCode s.lsb k v) →
      exec .golValue s = .next (((({ s with gol := golombNext s.gol v }.atBit
        (s.src.pos.toNat + (v / 2 ^ k + 1 + k))).setResult (residualOf v)).setResult1 (BitVec.ofNat 32 k)).finished))
    ∧ (s.lsb = true → (∀ j < 32 - s.src.pos.toNat % 8, s.srcBitAt (s.src.pos.toNat + j) = 0) →
      s.holdsBytes (s.src.pos.toNat / 8 + 4) [BitVec.ofNat 8 (v / 2 ^ k)] →
      s.holdsBits (8 * (s.src.pos.toNat / 8 + 5)) (fieldBits true k (v % 2 ^ k)) →
      exec .golValue s = .next (((({ s with gol := golombNext s.gol v }.atBit
        (8 * (s.src.pos.toNat / 8 + 5) + k)).setResult (residualOf v)).setResult1 (BitVec.ofNat 32 k)).finished))

/-- 43_golomb_gamma.md R320, R301, R318, 20_memory.md R110: GOL_DECODE of any block of zero runs and coded runs by turns, most
significant bit first, stores a zero or a residual's low byte at every stride, each value coded in the context the block's earlier
ones leave; a run that passes the count is a FormatError with the run's end (modulo 2^32, log 21). In either bit order a block of
one zero run stores a zero at every stride, and a block of one coded value its residual's low byte; with a count of 0 nothing is
read. -/
def Obligations.GolDecodeOfRuns : Prop :=
  (∀ (s : State) (zero : Bool) (runs : List (List Nat)), s.calm → s.lsb = false → s.srcInBounds = true → s.dstInBounds = true →
    s.arg 0 ≠ 0 → s.arg 1 ≠ 0 → s.dst.pos.toNat + ((s.arg 0).toNat - 1) * (s.arg 1).toNat < s.dst.len.toNat →
    golRunsCodable zero ⟨0, 3⟩ runs →
    ((s.arg 0).toNat = (golRunsBytes zero runs).length →
      s.holdsBits s.src.pos.toNat ((if zero then 0 else 1) :: golRunsCode zero ⟨0, 3⟩ runs) → ∃ t, exec .golDecode s = .next t
      ∧ t = (({ s with gol := golRunsNext zero ⟨0, 3⟩ runs, buf := t.buf }.atBit
        (s.src.pos.toNat + 1 + (golRunsCode zero ⟨0, 3⟩ runs).length)).setResult (s.arg 0)).finished
      ∧ (∀ j, (h : j < (golRunsBytes zero runs).length) →
        t.buf.get (s.dst.base.toNat + s.dst.pos.toNat + j * (s.arg 1).toNat) = (golRunsBytes zero runs)[j])
      ∧ ∀ a, (∀ j < (s.arg 0).toNat, a ≠ s.dst.base.toNat + s.dst.pos.toNat + j * (s.arg 1).toNat) →
        t.buf.get a = s.buf.get a)
    ∧ (∀ c, c < 2 ^ 32 → (golRunsBytes zero runs).length < (s.arg 0).toNat →
      (s.arg 0).toNat < (golRunsBytes zero runs).length + c →
      s.holdsBits s.src.pos.toNat ((if zero then 0 else 1) :: (golRunsCode zero ⟨0, 3⟩ runs ++ runCode false c)) →
      raises .golDecode s 5 4 1 (BitVec.ofNat 32 ((golRunsBytes zero runs).length + c))))
  ∧ (∀ s : State, s.calm → s.srcInBounds = true → s.dstInBounds = true → s.arg 0 ≠ 0 → s.arg 1 ≠ 0 →
    s.dst.pos.toNat + ((s.arg 0).toNat - 1) * (s.arg 1).toNat < s.dst.len.toNat →
    (s.holdsBits s.src.pos.toNat (0 :: runCode s.lsb (s.arg 0).toNat) → ∃ t, exec .golDecode s = .next t
      ∧ t = (({ s with gol := ⟨0, 3⟩, buf := t.buf }.atBit
        (s.src.pos.toNat + (2 * (s.arg 0).toNat.log2 + 2))).setResult (s.arg 0)).finished
      ∧ (∀ j < (s.arg 0).toNat, t.buf.get (s.dst.base.toNat + s.dst.pos.toNat + j * (s.arg 1).toNat) = 0)
      ∧ ∀ a, (∀ j < (s.arg 0).toNat, a ≠ s.dst.base.toNat + s.dst.pos.toNat + j * (s.arg 1).toNat) →
        t.buf.get a = s.buf.get a)
    ∧ (∀ v ≤ 255, s.arg 0 = 1 → (s.lsb = false ∨ (s.src.pos.toNat + 2) % 8 + v < 32) →
      s.holdsBits s.src.pos.toNat (1 :: 1 :: golombCode s.lsb 0 v) → ∃ t, exec .golDecode s = .next t
      ∧ t = (({ s with gol := golombNext ⟨0, 3⟩ v, buf := t.buf }.atBit (s.src.pos.toNat + (v + 3))).setResult 1).finished
      ∧ t.buf.get (s.dst.base.toNat + s.dst.pos.toNat) = (residualOf v).setWidth 8
      ∧ ∀ a, a ≠ s.dst.base.toNat + s.dst.pos.toNat → t.buf.get a = s.buf.get a))
  ∧ (∀ s : State, s.arg 0 = 0 → exec .golDecode s = .next (s.setResult 0).finished)

/-! ## Unit 6 -/

/-- 44_lzss.md R345, R347, R355: LZ_INIT seeds the window and refuses an illegal size, fill or position in that order;
LZ_DECOMPRESS refuses variants 3 and 4 as unsupported and 5 to 15 as bad operands, before any other check. -/
def Obligations.LzInitAndRefusedVariants : Prop :=
  ∀ s : State,
    ((s.arg 0).toNat ∈ [16, 32, 64, 128, 256, 512, 1024, 2048, 4096] → (s.arg 1).toNat ≤ 255 →
      (s.arg 2).toNat < (s.arg 0).toNat → ∃ t, exec .lzInit s = .next t ∧ t = { s with lz := t.lz }.finished
      ∧ t.lz.valid = true ∧ t.lz.w.toNat = (s.arg 0).toNat ∧ t.lz.r.toNat = (s.arg 2).toNat
      ∧ t.lz.fill = (s.arg 1).setWidth 8 ∧ (∀ i < (s.arg 0).toNat, t.lz.win.get i = (s.arg 1).setWidth 8)
      ∧ ∀ i, (s.arg 0).toNat ≤ i → t.lz.win.get i = s.lz.win.get i)
    ∧ ((s.arg 0).toNat ∉ [16, 32, 64, 128, 256, 512, 1024, 2048, 4096] →
      exec .lzInit s = .next (s.aborted 6 0 5 (s.arg 0)))
    ∧ ((s.arg 0).toNat ∈ [16, 32, 64, 128, 256, 512, 1024, 2048, 4096] → 255 < (s.arg 1).toNat →
      exec .lzInit s = .next (s.aborted 6 0 5 (s.arg 1)))
    ∧ ((s.arg 0).toNat ∈ [16, 32, 64, 128, 256, 512, 1024, 2048, 4096] → (s.arg 1).toNat ≤ 255 →
      (s.arg 0).toNat ≤ (s.arg 2).toNat → exec .lzInit s = .next (s.aborted 6 0 5 (s.arg 2)))
    ∧ (∀ v : BitVec 4, v = 3 ∨ v = 4 → exec (.lzDecompress v) s = .next (s.aborted 6 1 3 (v.setWidth 32)))
    ∧ (∀ v : BitVec 4, 5 ≤ v.toNat → exec (.lzDecompress v) s = .next (s.aborted 6 1 5 (v.setWidth 32)))

/-- 44_lzss.md R350, R351, R352, R356: for every byte string, each layout's stream of literals decompresses to it: variants 0 and 1
fill the destination, variant 2 consumes the source. Bytes outside the output stay. -/
def Obligations.LzLiteralsRoundTrip : Prop :=
  ∀ (s : State) (bytes : List Byte) (v : BitVec 4), s.calm → s.srcInBounds = true → s.dstInBounds = true →
    s.dst.pos ≠ s.dst.len →
    ((v = 0 ∧ bytes.length = s.dst.len.toNat - s.dst.pos.toNat ∧ s.lz.valid = true ∧ s.lz.w.toNat ∈ lzWindowSizes
        ∧ s.lz.r.toNat < s.lz.w.toNat ∧ s.holdsBytes s.nextByte (stdLiterals 0 bytes))
      ∨ (v = 1 ∧ bytes.length = s.dst.len.toNat - s.dst.pos.toNat ∧ s.holdsBits s.src.pos.toNat (onsLiterals s.lsb bytes))
      ∨ (v = 2 ∧ bytes.length ≤ s.dst.len.toNat - s.dst.pos.toNat ∧ s.lz.valid = true ∧ s.lz.w = 4096
        ∧ s.holdsBytes s.nextByte (tlg5Literals 0 bytes)
        ∧ s.nextByte + (tlg5Literals 0 bytes).length = s.src.len.toNat)) →
    ∃ t, exec (.lzDecompress v) s = .next t
      ∧ t = (({ s with lz := t.lz, buf := t.buf, dst := { s.dst with pos := s.dst.pos + BitVec.ofNat 32 bytes.length } }.atBit
        (if v = 0 then 8 * (s.nextByte + (stdLiterals 0 bytes).length) else if v = 1 then s.src.pos.toNat + 9 * bytes.length
          else 8 * s.src.len.toNat)).setResult (BitVec.ofNat 32 bytes.length)).finished
      ∧ (∀ i, (h : i < bytes.length) → t.buf.get (s.dst.base.toNat + s.dst.pos.toNat + i) = bytes[i])
      ∧ (∀ a, a < s.dst.base.toNat + s.dst.pos.toNat ∨ s.dst.base.toNat + s.dst.pos.toNat + bytes.length ≤ a →
        t.buf.get a = s.buf.get a)
      ∧ t.lz.valid = true
      ∧ t.lz.r.toNat = (if v = 1 then (239 + bytes.length) % 256 else (s.lz.r.toNat + bytes.length) % s.lz.w.toNat)

/-- 44_lzss.md R341, R347, R350, R351, R352: a match that starts `d` bytes back repeats the last `d` window bytes, its own output
included, byte by byte. Variants 0 and 1 stop when the destination is full; variant 1 takes an 8-bit index and a 4-bit length, here
behind literals, in the zero-filled window it seeds; variant 2 takes a 12-bit position and a length that a third byte extends, and
is a FormatError at DST_LEN when the match does not fit. -/
def Obligations.LzMatchRepeatsWindow : Prop :=
  (∀ (s : State) (flags lo hi : Byte) (d : Nat), s.calm → s.srcInBounds = true → s.dstInBounds = true →
      s.lz.valid = true → s.lz.w.toNat ∈ lzWindowSizes → s.lz.r.toNat < s.lz.w.toNat → flags.getLsbD 0 = false →
      s.holdsBytes s.nextByte [flags, lo, hi] → 1 ≤ d → d ≤ s.lz.w.toNat →
      (lo.toNat + hi.toNat / 16 * 256) % s.lz.w.toNat = (s.lz.r.toNat + s.lz.w.toNat - d) % s.lz.w.toNat →
      s.dst.pos ≠ s.dst.len → s.dst.len.toNat - s.dst.pos.toNat ≤ hi.toNat % 16 + 3 →
      ∃ t, exec (.lzDecompress 0) s = .next t
        ∧ t = (({ s with lz := t.lz, buf := t.buf, dst := { s.dst with pos := s.dst.len } }.atBit
          (8 * (s.nextByte + 3))).setResult (s.dst.len - s.dst.pos)).finished
        ∧ ∀ k < s.dst.len.toNat - s.dst.pos.toNat, t.buf.get (s.dst.base.toNat + s.dst.pos.toNat + k)
          = s.lz.win.get ((s.lz.r.toNat + s.lz.w.toNat - d + k % d) % s.lz.w.toNat))
  ∧ (∀ (s : State) (bytes : List Byte) (i j d : Nat), s.calm → s.srcInBounds = true → s.dstInBounds = true → i < 256 → j < 16 →
    1 ≤ d → d ≤ 256 → i = (239 + bytes.length + 256 - d) % 256 →
    s.holdsBits s.src.pos.toNat (onsLiterals s.lsb bytes ++ 0 :: (fieldBits s.lsb 8 i ++ fieldBits s.lsb 4 j)) →
    bytes.length < s.dst.len.toNat - s.dst.pos.toNat → s.dst.len.toNat - s.dst.pos.toNat ≤ bytes.length + j + 2 →
    ∃ t, exec (.lzDecompress 1) s = .next t
      ∧ t = (({ s with lz := t.lz, buf := t.buf, dst := { s.dst with pos := s.dst.len } }.atBit
        (s.src.pos.toNat + 9 * bytes.length + 13)).setResult (s.dst.len - s.dst.pos)).finished
      ∧ t.lz.valid = true ∧ t.lz.w = 256 ∧ t.lz.fill = 0
      ∧ t.lz.r.toNat = (239 + (s.dst.len.toNat - s.dst.pos.toNat)) % 256
      ∧ (∀ k, (h : k < bytes.length) → t.buf.get (s.dst.base.toNat + s.dst.pos.toNat + k) = bytes[k])
      ∧ ∀ k, bytes.length + k < s.dst.len.toNat - s.dst.pos.toNat →
        t.buf.get (s.dst.base.toNat + s.dst.pos.toNat + bytes.length + k)
          = if d ≤ bytes.length + k % d then bytes.getD (bytes.length + k % d - d) 0 else 0)
  ∧ ∀ (s : State) (flags b0 b1 x : Byte) (d n : Nat), s.calm → s.srcInBounds = true → s.dstInBounds = true →
    s.lz.valid = true → s.lz.w = 4096 → flags.getLsbD 0 = true → 1 ≤ d → d ≤ 4096 →
    (b0.toNat + b1.toNat % 16 * 256) % 4096 = (s.lz.r.toNat + 4096 - d) % 4096 →
    n = b1.toNat / 16 + 3 + (if b1.toNat / 16 = 15 then x.toNat else 0) → s.dst.pos ≠ s.dst.len →
    s.holdsBytes s.nextByte ([flags, b0, b1] ++ if b1.toNat / 16 = 15 then [x] else []) →
    s.nextByte + (if b1.toNat / 16 = 15 then 4 else 3) = s.src.len.toNat →
    (n ≤ s.dst.len.toNat - s.dst.pos.toNat → ∃ t, exec (.lzDecompress 2) s = .next t
      ∧ t = (({ s with lz := t.lz, buf := t.buf, dst := { s.dst with pos := s.dst.pos + BitVec.ofNat 32 n } }.atBit
        (8 * s.src.len.toNat)).setResult (BitVec.ofNat 32 n)).finished
      ∧ t.lz.valid = true ∧ t.lz.w = 4096 ∧ t.lz.r.toNat = (s.lz.r.toNat + n) % 4096
      ∧ ∀ k < n, t.buf.get (s.dst.base.toNat + s.dst.pos.toNat + k)
        = s.lz.win.get ((s.lz.r.toNat + 4096 - d + k % d) % 4096))
    ∧ (s.dst.len.toNat - s.dst.pos.toNat < n → raises (.lzDecompress 2) s 6 1 1 s.dst.len)

/-! ## Execution errors of the decoders -/

/-- 60_exceptions.md R506, R507: a stream decoder whose source ends inside a code, a literal or a match raises TruncatedInput with
the cursor, here the end of the source, each unit's in its own clause; an ERI gamma code of 31 pairs that all continue and a run
length behind 32 zeros are a FormatError at the cursor behind them (43_golomb_gamma.md R300, R301). -/
def Obligations.ShortOrOverlongCodesAreRefused : Prop :=
  ∀ s : State, s.srcInBounds = true → ∀ e : Word, e = BitVec.ofNat 32 (8 * s.src.len.toNat) →
    (s.src.len.toNat < s.nextByte + 2 → raises .rcStart s 2 0 2 e
      ∧ (s.qs.valid = true → s.dstInBounds = true → s.dst.pos ≠ s.dst.len → raises .rcDecode s 2 4 2 e))
    ∧ (∀ n, s.rc.st = .decoding → s.nextByte + n = s.src.len.toNat → (∀ m ≤ n, rcNeed s.rcCfg (s.rcAfter m) = true) →
      raises .rcNormalize s 2 3 2 e
      ∧ ∀ shift : BitVec 5, 1 ≤ shift.toNat → shift.toNat ≤ 16 → raises (.rcCulshift shift) s 2 1 2 e)
    ∧ (∀ (k : Fin 256) (bits : List Nat), s.huf.valid = true → k.val = (if s.huf.order1 then s.huf.last.toNat else 0) →
      s.holdsBits s.src.pos.toNat bits →
      (s.huf.trees[k].esc = 0x8000 → s.src.pos.toNat + bits.length = 8 * s.src.len.toNat → bits.length < 8 →
        raises .hufGetcode s 4 1 2 e)
      ∧ (s.huf.trees[k].esc ≠ 0x8000 → s.src.pos.toNat + bits.length = 8 * s.src.len.toNat →
        hufInner s.huf.trees[k].c (s.huf.trees[k].c.get 0x200) bits → raises .hufGetcode s 4 1 2 e)
      ∧ (∀ node, s.huf.trees[k].esc ≠ 0x8000 → hufPath s.huf.trees[k].c (s.huf.trees[k].c.get 0x200) bits node →
        s.huf.trees[k].c.get node = 0xFFFFFFFF → 8 * s.src.len.toNat < s.src.pos.toNat + bits.length + 8 →
        raises .hufGetcode s 4 1 2 e))
    ∧ (∀ (v : Nat) (bits : List Nat), 1 ≤ v → v < 2 ^ 32 → s.holdsBits s.src.pos.toNat bits →
      s.src.pos.toNat + bits.length = 8 * s.src.len.toNat →
      (bits <+: eriCode v → bits ≠ eriCode v → raises .golGamma s 5 0 2 e)
      ∧ (bits <+: runCode s.lsb v → bits ≠ runCode s.lsb v → raises .golRunlen s 5 1 2 e)
      ∧ (s.lsb = false → s.gol.a.toNat < 1024 → v / 2 ^ golombLength s.gol ≤ 255 →
        bits <+: golombCode false (golombLength s.gol) v → bits ≠ golombCode false (golombLength s.gol) v →
        raises .golValue s 5 2 2 e))
    ∧ (∀ data : List Nat, data.length = 31 → (∀ b ∈ data, b < 2) →
      s.holdsBits s.src.pos.toNat (1 :: data.flatMap (fun b => [b, 1])) → raises .golGamma s 5 0 1 (s.src.pos + 63))
    ∧ (s.holdsBits s.src.pos.toNat (List.replicate 32 0) → raises .golRunlen s 5 1 1 (s.src.pos + 32))
    ∧ (s.calm → s.dstInBounds = true → s.arg 0 ≠ 0 → s.arg 1 ≠ 0 →
      s.dst.pos.toNat + ((s.arg 0).toNat - 1) * (s.arg 1).toNat < s.dst.len.toNat →
      s.src.pos.toNat = 8 * s.src.len.toNat → raises .golDecode s 5 4 2 e)
    ∧ (∀ bytes : List Byte, s.calm → s.dstInBounds = true → bytes.length = s.dst.len.toNat - s.dst.pos.toNat →
      (∀ pre : List Byte, s.lz.valid = true → pre <+: stdLiterals 0 bytes → pre ≠ stdLiterals 0 bytes →
        s.holdsBytes s.nextByte pre → s.nextByte + pre.length = s.src.len.toNat → raises (.lzDecompress 0) s 6 1 2 e)
      ∧ (∀ pre : List Nat, pre <+: onsLiterals s.lsb bytes → pre ≠ onsLiterals s.lsb bytes →
        s.holdsBits s.src.pos.toNat pre → s.src.pos.toNat + pre.length = 8 * s.src.len.toNat →
        raises (.lzDecompress 1) s 6 1 2 e))
    ∧ (∀ flags b0 b1 : Byte, s.calm → s.dstInBounds = true → s.dst.pos ≠ s.dst.len → s.lz.valid = true → s.lz.w = 4096 →
      flags.getLsbD 0 = true →
      (s.holdsBytes s.nextByte [flags, b0] → s.nextByte + 2 = s.src.len.toNat → raises (.lzDecompress 2) s 6 1 2 e)
      ∧ (s.holdsBytes s.nextByte [flags, b0, b1] → b1.toNat / 16 = 15 → s.nextByte + 3 = s.src.len.toNat →
        raises (.lzDecompress 2) s 6 1 2 e))

/-! ## Units 7 and 8 -/

/-- 45_camellia.md R383, R387, R388, R389: FLINV undoes FL and FL undoes FLINV; CamDec is the inverse of Camellia encryption under
the same subkeys, whatever the key, the derived key and the perturbation; the s-box is a permutation. -/
def Obligations.CamDecInvertsEncryption : Prop :=
  (∀ x k : BitVec 64, camFLInv (camFL x k) k = x ∧ camFL (camFLInv x k) k = x)
  ∧ (∀ (l a p : BitVec 128) (rho : Nat), camDec l a (camEnc l a p rho) rho = p ∧ camEnc l a (camDec l a p rho) rho = p)
  ∧ ∀ x y : Byte, camS1 x = camS1 y → x = y

/-- 45_camellia.md R391, R392, R393, R394: CAM_DECBLK decrypts the 16 bytes at ARG4 in place, big-endian; CAM_DECRANGE each whole
block of its range from the block's own bytes and offset, leaving the bytes behind the last whole block; the checks in their
order. -/
def Obligations.CamDecryptsBlocks : Prop :=
  ∀ s : State,
    (s.cam.keyed = true → s.tainted = false → (s.arg 4).toNat + 16 ≤ s.cfg.bufSize →
      ∃ t, exec .camDecblk s = .next t ∧ t = { s with buf := t.buf }.finished
      ∧ ∀ c : BitVec 128, (∀ i < 16, c.extractLsb' (8 * (15 - i)) 8 = s.buf.get ((s.arg 4).toNat + i)) →
        ∀ i < 16, t.buf.get ((s.arg 4).toNat + i)
          = (camDec s.cam.kl s.cam.ka c (s.camRot (s.arg 6 ++ s.arg 5))).extractLsb' (8 * (15 - i)) 8)
    ∧ (s.cam.keyed = true → s.tainted = false → (s.arg 4).toNat + (s.arg 7).toNat / 16 * 16 ≤ s.cfg.bufSize →
      ∃ t, exec .camDecrange s = .next t
      ∧ t = ({ s with buf := t.buf }.setResult (BitVec.ofNat 32 ((s.arg 7).toNat / 16 * 16))).finished
      ∧ (∀ j < (s.arg 7).toNat / 16, ∀ c : BitVec 128,
        (∀ i < 16, c.extractLsb' (8 * (15 - i)) 8 = s.buf.get ((s.arg 4).toNat + 16 * j + i)) →
        ∀ i < 16, t.buf.get ((s.arg 4).toNat + 16 * j + i)
          = (camDec s.cam.kl s.cam.ka c (s.camRot (s.arg 6 ++ s.arg 5 + BitVec.ofNat 64 (16 * j)))).extractLsb'
            (8 * (15 - i)) 8)
      ∧ ∀ a, a < (s.arg 4).toNat ∨ (s.arg 4).toNat + (s.arg 7).toNat / 16 * 16 ≤ a → t.buf.get a = s.buf.get a)
    ∧ (s.cam.keyed = false → exec .camDecblk s = .next (s.aborted 7 1 10 s.unitstat)
      ∧ exec .camDecrange s = .next (s.aborted 7 2 10 s.unitstat))
    ∧ (s.cam.keyed = true → s.cfg.bufSize < (s.arg 4).toNat + 16 →
      exec .camDecblk s = .next (s.aborted 7 1 6 (s.arg 4)))
    ∧ (s.cam.keyed = true → s.cfg.bufSize < (s.arg 4).toNat + (s.arg 7).toNat / 16 * 16 →
      exec .camDecrange s = .next (s.aborted 7 2 6 (s.arg 4)))

/-- 46_nekopack.md R421: PADDW is the lane-wise sum modulo 2^16 of four 16-bit lanes, with no carry between lanes. -/
def Obligations.PaddwIsLanewise : Prop :=
  ∀ (x y : BitVec 64) (l : Nat), l < 4 →
    (paddw x y).toNat / 2 ^ (16 * l) % 2 ^ 16
      = (x.toNat / 2 ^ (16 * l) % 2 ^ 16 + y.toNat / 2 ^ (16 * l) % 2 ^ 16) % 2 ^ 16

/-- 46_nekopack.md R420, R424, R425: NEKO_DECRYPT turns each whole little-endian word into its xor with the running key, and the
key grows by every ciphertext word; the bytes behind the last whole word stay; the checks in their order. The running key persists,
so two commands over consecutive whole words give the bytes and the key of one command over them all. -/
def Obligations.NekoDecryptsWords : Prop :=
  (∀ s : State,
      (s.neko.keyed = true → s.tainted = false → (s.arg 2).toNat + (s.arg 3).toNat / 8 * 8 ≤ s.cfg.bufSize →
        ∃ t, exec .nekoDecrypt s = .next t
        ∧ t = ({ s with buf := t.buf, neko := ⟨true, nekoKeyAfter s.buf (s.arg 2).toNat s.neko.key ((s.arg 3).toNat / 8)⟩
          }.setResult (BitVec.ofNat 32 ((s.arg 3).toNat / 8 * 8))).finished
        ∧ (∀ j < (s.arg 3).toNat / 8, ∀ i < 8, t.buf.get ((s.arg 2).toNat + 8 * j + i)
          = s.buf.get ((s.arg 2).toNat + 8 * j + i)
            ^^^ (nekoKeyAfter s.buf (s.arg 2).toNat s.neko.key j).extractLsb' (8 * i) 8)
        ∧ ∀ a, a < (s.arg 2).toNat ∨ (s.arg 2).toNat + (s.arg 3).toNat / 8 * 8 ≤ a → t.buf.get a = s.buf.get a)
      ∧ (s.neko.keyed = false → exec .nekoDecrypt s = .next (s.aborted 8 2 10 s.unitstat))
      ∧ (s.neko.keyed = true → s.cfg.bufSize < (s.arg 2).toNat + (s.arg 3).toNat / 8 * 8 →
        exec .nekoDecrypt s = .next (s.aborted 8 2 6 (s.arg 2))))
  ∧ ∀ (s t u w : State) (n m : Nat), s.err = false → s.tainted = false → 8 * (n + m) < 2 ^ 32 →
    (s.arg 2).toNat + 8 * (n + m) ≤ s.cfg.bufSize →
    exec .nekoDecrypt { s with args := s.args.set 3 (BitVec.ofNat 32 (8 * n)) } = .next t →
    exec .nekoDecrypt { t with
      args := (t.args.set 2 (s.arg 2 + BitVec.ofNat 32 (8 * n))).set 3 (BitVec.ofNat 32 (8 * m)) } = .next u →
    exec .nekoDecrypt { s with args := s.args.set 3 (BitVec.ofNat 32 (8 * (n + m))) } = .next w →
    u.buf = w.buf ∧ u.neko = w.neko

/-! ## Unit 9 -/

/-- 47_transform.md R441: the sum, the difference and the product of finite values, and the conversion of an integer, are the nearest
binary32 value, ties to even, an overflow infinite and an exact zero with the sign of round to nearest; infinities and NaNs as in
IEEE 754 (which NaN is log 10). -/
def Obligations.FloatOperationsRoundToNearest : Prop :=
  (∀ a b : F32, fFinite a = true → fFinite b = true →
    isRounded (if fInt a + fInt b = 0 then a.msb && b.msb else decide (fInt a + fInt b < 0)) (fInt a + fInt b) 0 (fAdd a b)
    ∧ isRounded (if fInt a - fInt b = 0 then a.msb && !b.msb else decide (fInt a - fInt b < 0)) (fInt a - fInt b) 0 (fSub a b)
    ∧ isRounded (a.msb != b.msb) (fInt a * fInt b) 149 (fMul a b))
  ∧ (∀ q : BitVec 32, isRounded q.msb (q.toInt * 2 ^ 149) 0 (fCvt q))
  ∧ (∀ a b : F32, fNaN a = true ∨ fNaN b = true → fNaN (fAdd a b) = true ∧ fNaN (fSub a b) = true ∧ fNaN (fMul a b) = true)
  ∧ (∀ (n : Bool) (b : F32), fNaN b = false →
    (b ≠ fInf (!n) → fAdd (fInf n) b = fInf n ∧ fAdd b (fInf n) = fInf n)
    ∧ (b ≠ fInf n → fSub (fInf n) b = fInf n ∧ fSub b (fInf n) = fInf (!n))
    ∧ (fZero b = false → fMul (fInf n) b = fInf (n != b.msb) ∧ fMul b (fInf n) = fInf (n != b.msb))
    ∧ (b = fInf (!n) → fNaN (fAdd (fInf n) b) = true) ∧ (b = fInf n → fNaN (fSub (fInf n) b) = true)
    ∧ (fZero b = true → fNaN (fMul (fInf n) b) = true ∧ fNaN (fMul b (fInf n)) = true))

/-- 47_transform.md R465, R441: over the reals, the fixed-point sums that the model compares an XF_IDCT output with are the exact
value `x[n]` and the size `S(n)` to within 2^-500 of the sum of the input magnitudes (that this decides every comparison as the
reals do is argued in log 9). -/
def Obligations.DctFixedPointIsTheRealDct : Prop :=
  ∀ (d : Nat) (xs : List F32) (n : Nat), 2 ≤ d → d ≤ 12 → xs.length = 2 ^ d → n < 2 ^ d →
    |(dctExact d xs n : ℝ) / 2 ^ (149 + cosBits d) - ((fInt (xs.getD 0 0) : ℝ) / 2 ^ 149 * Real.cos (Real.pi / 4)
      + ∑ k ∈ Finset.Ico 1 (2 ^ d), (fInt (xs.getD k 0) : ℝ) / 2 ^ 149 * Real.cos (Real.pi * (2 * n + 1) * k / (2 * 2 ^ d)))|
      ≤ (∑ k ∈ Finset.range (2 ^ d), |(fInt (xs.getD k 0) : ℝ)| / 2 ^ 149) / 2 ^ 500
    ∧ |(dctSize d xs n : ℝ) / 2 ^ (149 + cosBits d) - (|(fInt (xs.getD 0 0) : ℝ)| / 2 ^ 149 * Real.cos (Real.pi / 4)
      + ∑ k ∈ Finset.Ico 1 (2 ^ d), |(fInt (xs.getD k 0) : ℝ) / 2 ^ 149 * Real.cos (Real.pi * (2 * n + 1) * k / (2 * 2 ^ d))|)|
      ≤ (∑ k ∈ Finset.range (2 ^ d), |(fInt (xs.getD k 0) : ℝ)| / 2 ^ 149) / 2 ^ 500

/-- 47_transform.md R440, R445, R446, R447: XF_LOADQ and XF_LOADF read `N` little-endian 32-bit values into XQ or XA, XF_STOREF
writes XA; each checks the degree, 2 to 12, then the address range. -/
def Obligations.XfLoadsAndStores : Prop :=
  (∀ d : BitVec 4, degreeOk d = true ↔ 2 ≤ d.toNat ∧ d.toNat ≤ 12) ∧ ∀ (s : State) (d : BitVec 4),
    (degreeOk d = true → (s.arg 0).toNat + 4 * 2 ^ d.toNat ≤ s.cfg.bufSize →
      (∃ t, exec (.xfLoadq d) s = .next t ∧ t = { s with xf := { s.xf with xq := t.xf.xq } }.finished
        ∧ (∀ i < 2 ^ d.toNat, ∀ j < 4, (t.xf.xq.get i).extractLsb' (8 * j) 8 = s.buf.get ((s.arg 0).toNat + 4 * i + j))
        ∧ ∀ i, 2 ^ d.toNat ≤ i → t.xf.xq.get i = s.xf.xq.get i)
      ∧ (∃ t, exec (.xfLoadf d) s = .next t ∧ t = { s with xf := { s.xf with xa := t.xf.xa } }.finished
        ∧ (∀ i < 2 ^ d.toNat, ∀ j < 4, (t.xf.xa.get i).extractLsb' (8 * j) 8 = s.buf.get ((s.arg 0).toNat + 4 * i + j))
        ∧ ∀ i, 2 ^ d.toNat ≤ i → t.xf.xa.get i = s.xf.xa.get i)
      ∧ (s.tainted = false → ∃ t, exec (.xfStoref d) s = .next t ∧ t = { s with buf := t.buf }.finished
        ∧ (∀ i < 2 ^ d.toNat, ∀ j < 4, t.buf.get ((s.arg 0).toNat + 4 * i + j) = (s.xf.xa.get i).extractLsb' (8 * j) 8)
        ∧ ∀ a, a < (s.arg 0).toNat ∨ (s.arg 0).toNat + 4 * 2 ^ d.toNat ≤ a → t.buf.get a = s.buf.get a))
    ∧ (degreeOk d = true → s.cfg.bufSize < (s.arg 0).toNat + 4 * 2 ^ d.toNat →
      exec (.xfLoadq d) s = .next (s.aborted 9 0 6 (s.arg 0)) ∧ exec (.xfLoadf d) s = .next (s.aborted 9 8 6 (s.arg 0))
      ∧ exec (.xfStoref d) s = .next (s.aborted 9 9 6 (s.arg 0)))
    ∧ (degreeOk d = false → exec (.xfLoadq d) s = .next (s.aborted 9 0 5 (d.setWidth 32))
      ∧ exec (.xfLoadf d) s = .next (s.aborted 9 8 5 (d.setWidth 32))
      ∧ exec (.xfStoref d) s = .next (s.aborted 9 9 5 (d.setWidth 32)))

/-- 47_transform.md R440, R450, R455: whatever the OPEN weights and rotations are, XF_IQUANT multiplies each residual with a finite
weight and maps 0 to a zero; XF_GIVENS applies rotations that meet R455's conditions one after another, each turning its two entries
by its `c` and `s`, leaves even entries alone and keeps a zero block zero (logs 7 and 8 say how the OPEN parameters are made to meet
their conditions). A degree outside 2 to 12 is refused by both, changing nothing. -/
def Obligations.XfIquantAndGivens : Prop :=
  ∀ (s : State) (d : BitVec 4),
    (degreeOk d = false → exec (.xfIquant d) s = .next (s.aborted 9 1 5 (d.setWidth 32))
      ∧ exec (.xfGivens d) s = .next (s.aborted 9 2 5 (d.setWidth 32)))
    ∧ (degreeOk d = true → (∃ t, exec (.xfIquant d) s = .next t
      ∧ t = { s with xf := { s.xf with xw := t.xf.xw, xa := t.xf.xa } }.finished
      ∧ (∀ i < 2 ^ d.toNat, fFinite (t.xf.xw.get i) = true ∧ t.xf.xw.get i = xfWeight d.toNat (s.arg 1) (s.arg 2) i
        ∧ t.xf.xa.get i = fMul (fCvt (s.xf.xq.get i)) (t.xf.xw.get i)
        ∧ (s.xf.xq.get i = 0 → fZero (t.xf.xa.get i) = true))
      ∧ ∀ i, 2 ^ d.toNat ≤ i → t.xf.xw.get i = s.xf.xw.get i ∧ t.xf.xa.get i = s.xf.xa.get i)
    ∧ (∃ t, exec (.xfGivens d) s = .next t
      ∧ t = { s with xf := { s.xf with xa := t.xf.xa, xt := t.xf.xt }, draws := s.draws + drawsPerEvent }.finished
      ∧ t.xf.xa = (xfRotations d.toNat).foldl rotate s.xf.xa
      ∧ (∀ r ∈ xfRotations d.toNat, r.i ≠ r.j ∧ r.i % 2 = 1 ∧ r.j % 2 = 1 ∧ r.i < 2 ^ d.toNat ∧ r.j < 2 ^ d.toNat
        ∧ fFinite r.c = true ∧ fFinite r.s = true
        ∧ |((fInt r.c : ℚ) / 2 ^ 149) ^ 2 + ((fInt r.s : ℚ) / 2 ^ 149) ^ 2 - 1| ≤ 1 / 2 ^ 20
        ∧ ∀ xa : Store 32,
          (rotate xa r).get r.i = fSub (fMul r.c (xa.get r.i)) (fMul r.s (xa.get r.j))
          ∧ (rotate xa r).get r.j = fAdd (fMul r.s (xa.get r.i)) (fMul r.c (xa.get r.j))
          ∧ ∀ k, k ≠ r.i → k ≠ r.j → (rotate xa r).get k = xa.get k)
      ∧ (∀ i, i % 2 = 0 ∨ 2 ^ d.toNat ≤ i → t.xf.xa.get i = s.xf.xa.get i)
      ∧ ((∀ i < 2 ^ d.toNat, fZero (s.xf.xa.get i) = true) → ∀ i < 2 ^ d.toNat, fZero (t.xf.xa.get i) = true)))

/-- 47_transform.md R440, R460, R461: XF_IPLOT replaces each pair by its sum and difference; XF_ILOT pairs the carry's even entries
with the block's odd ones and keeps the block as the next carry. A degree outside 2 to 12 is refused by both, changing nothing. -/
def Obligations.XfLappedTransform : Prop :=
  ∀ (s : State) (d : BitVec 4),
    (degreeOk d = false → exec (.xfIplot d) s = .next (s.aborted 9 3 5 (d.setWidth 32))
      ∧ exec (.xfIlot d) s = .next (s.aborted 9 4 5 (d.setWidth 32)))
    ∧ (degreeOk d = true → (∃ t, exec (.xfIplot d) s = .next t ∧ t = { s with xf := { s.xf with xa := t.xf.xa } }.finished
      ∧ (∀ i < 2 ^ d.toNat, i % 2 = 0 → t.xf.xa.get i = fAdd (s.xf.xa.get i) (s.xf.xa.get (i + 1))
        ∧ t.xf.xa.get (i + 1) = fSub (s.xf.xa.get i) (s.xf.xa.get (i + 1)))
      ∧ ∀ i, 2 ^ d.toNat ≤ i → t.xf.xa.get i = s.xf.xa.get i)
    ∧ (∃ t, exec (.xfIlot d) s = .next t
      ∧ t = { s with xf := { s.xf with xa := t.xf.xa, xc := t.xf.xc } }.finished
      ∧ (∀ i < 2 ^ d.toNat, i % 2 = 0 → t.xf.xa.get i = fAdd (s.xf.xc.get i) (s.xf.xa.get (i + 1))
        ∧ t.xf.xa.get (i + 1) = fSub (s.xf.xc.get i) (s.xf.xa.get (i + 1)))
      ∧ (∀ i < 2 ^ d.toNat, t.xf.xc.get i = s.xf.xa.get i)
      ∧ ∀ i, 2 ^ d.toNat ≤ i → t.xf.xa.get i = s.xf.xa.get i ∧ t.xf.xc.get i = s.xf.xc.get i))

/-- 47_transform.md R462: XF_CLRCARRY sets every carry entry to +0.0, has no other effect and raises nothing; SRST_UNIT 9 has the
same effect on the carry. -/
def Obligations.XfClrcarryZeroesCarry : Prop :=
  encode .xfClrcarry = 0x97000000 ∧ ∀ s : State,
    (∃ t, exec .xfClrcarry s = .next t ∧ t = { s with xf := { s.xf with xc := t.xf.xc } }.finished
      ∧ ∀ i, t.xf.xc.get i = 0)
    ∧ ∃ t u, exec .xfClrcarry s = .next t ∧ exec (.srstUnit 9) s = .next u ∧ t.xf = u.xf

/-- 47_transform.md R440, R441, R465: where P-XF.2 applies, every output of XF_IDCT is finite and meets the bound `2^-16 * S(n)` whenever a
binary32 value does (one within half a quantum of 0 may not: the output is then within one quantum more, log 9), and a zero block
stays zero, whatever IdctFP is. `DctFixedPointIsTheRealDct` ties the fixed-point sums to the reals. A degree outside 2 to 12 is
refused, changing nothing. -/
def Obligations.XfIdctIsAccurate : Prop :=
  ∀ (s : State) (d : BitVec 4),
    (degreeOk d = false → exec (.xfIdct d) s = .next (s.aborted 9 5 5 (d.setWidth 32)))
    ∧ (degreeOk d = true → ∃ t, exec (.xfIdct d) s = .next t
      ∧ t = { s with xf := { s.xf with xa := t.xf.xa, xt := t.xf.xt }, draws := s.draws + drawsPerEvent }.finished
      ∧ (∀ i, 2 ^ d.toNat ≤ i → t.xf.xa.get i = s.xf.xa.get i)
      ∧ (∀ xs, xs = s.xaBlock (2 ^ d.toNat) → dctInRange d.toNat xs = true → ∀ i < 2 ^ d.toNat,
        fFinite (t.xf.xa.get i) = true
        ∧ ((∃ y : F32, fFinite y = true
            ∧ 2 ^ 16 * (fInt y * 2 ^ cosBits d.toNat - dctExact d.toNat xs i).natAbs ≤ dctSize d.toNat xs i) →
          2 ^ 16 * (fInt (t.xf.xa.get i) * 2 ^ cosBits d.toNat - dctExact d.toNat xs i).natAbs ≤ dctSize d.toNat xs i)
        ∧ 2 ^ 16 * (fInt (t.xf.xa.get i) * 2 ^ cosBits d.toNat - dctExact d.toNat xs i).natAbs
          ≤ dctSize d.toNat xs i + 2 ^ (16 + cosBits d.toNat))
      ∧ ((∀ i < 2 ^ d.toNat, fZero (s.xf.xa.get i) = true) → ∀ i < 2 ^ d.toNat, fZero (t.xf.xa.get i) = true))

/-- 47_transform.md R470: XF_STORE16 stores each entry rounded half away from zero and clamped, little-endian, at the signed stride,
a later entry over an earlier one where a stride of 1 or -1 makes them share a byte; it refuses, in order, a bad degree, a zero
stride, a span outside BUF and the lowest NaN, changing nothing. -/
def Obligations.XfStore16RoundsAndStores : Prop :=
  ∀ (s : State) (d : BitVec 4), ∀ n : Nat, n = 2 ^ d.toNat → ∀ lo hi : Int,
    lo = min ((s.arg 0).toNat : Int) ((s.arg 0).toNat + (s.arg 1).toInt * ((n : Int) - 1)) →
    hi = max ((s.arg 0).toNat : Int) ((s.arg 0).toNat + (s.arg 1).toInt * ((n : Int) - 1)) + 2 →
    (degreeOk d = false → exec (.xfStore16 d) s = .next (s.aborted 9 6 5 (d.setWidth 32)))
    ∧ (degreeOk d = true → s.arg 1 = 0 → exec (.xfStore16 d) s = .next (s.aborted 9 6 5 0))
    ∧ (degreeOk d = true → s.arg 1 ≠ 0 → lo < 0 ∨ (s.cfg.bufSize : Int) < hi →
      exec (.xfStore16 d) s = .next (s.aborted 9 6 6 (s.arg 0)))
    ∧ (degreeOk d = true → s.arg 1 ≠ 0 → 0 ≤ lo → hi ≤ (s.cfg.bufSize : Int) →
      (∀ i < n, fNaN (s.xf.xa.get i) = true → (∀ j < i, fNaN (s.xf.xa.get j) = false) →
        exec (.xfStore16 d) s = .next (s.aborted 9 6 1 (BitVec.ofNat 32 i)))
      ∧ ((∀ i < n, fNaN (s.xf.xa.get i) = false) → s.tainted = false →
        ∃ t, exec (.xfStore16 d) s = .next t ∧ t = { s with buf := t.buf }.finished
          ∧ (∀ i < n, ∀ a : Nat, (a : Int) = (s.arg 0).toNat + (s.arg 1).toInt * i → ∀ k < 2,
            (∀ j < n, i < j → ((a + k : Nat) : Int) ≠ (s.arg 0).toNat + (s.arg 1).toInt * j
              ∧ ((a + k : Nat) : Int) ≠ (s.arg 0).toNat + (s.arg 1).toInt * j + 1) →
            t.buf.get (a + k) = (round16 (s.xf.xa.get i)).extractLsb' (8 * k) 8)))
    ∧ ∀ v : F32, fFinite v = true → (round16 v).toInt
      = max (-32768) (min 32767 ((if v.msb then -1 else 1) * (((fMag v + 2 ^ 148) / 2 ^ 149 : Nat) : Int)))

/-- 47_transform.md R475: XF_RESTORE of an all-zero residual block with a zero carry stores zero bytes and leaves the carry zero,
for every choice of the OPEN parameters. -/
def Obligations.XfRestoreOfZeroBlock : Prop :=
  ∀ (s : State) (d : BitVec 4), ∀ n : Nat, n = 2 ^ d.toNat → degreeOk d = true → s.tainted = false → s.arg 4 ≠ 0 →
    (s.arg 0).toNat + 4 * n ≤ s.cfg.bufSize →
    0 ≤ min ((s.arg 3).toNat : Int) ((s.arg 3).toNat + (s.arg 4).toInt * ((n : Int) - 1)) →
    max ((s.arg 3).toNat : Int) ((s.arg 3).toNat + (s.arg 4).toInt * ((n : Int) - 1)) + 2 ≤ (s.cfg.bufSize : Int) →
    (∀ a, (s.arg 0).toNat ≤ a → a < (s.arg 0).toNat + 4 * n → s.buf.get a = 0) →
    (∀ i < n, fZero (s.xf.xc.get i) = true) →
    ∃ t, exec (.xfRestore d) s = .next t ∧ t = { s with buf := t.buf, xf := t.xf, draws := t.draws }.finished
      ∧ (∀ i < n, ∀ a : Nat, (a : Int) = (s.arg 3).toNat + (s.arg 4).toInt * i → t.buf.get a = 0 ∧ t.buf.get (a + 1) = 0)
      ∧ (∀ a : Nat, (∀ i < n, (a : Int) ≠ (s.arg 3).toNat + (s.arg 4).toInt * i
        ∧ (a : Int) ≠ (s.arg 3).toNat + (s.arg 4).toInt * i + 1) → t.buf.get a = s.buf.get a)
      ∧ ∀ i < n, fZero (t.xf.xc.get i) = true

/-- 47_transform.md R475, R476: XF_RESTORE refuses, in order, a bad degree, a zero stride, residuals outside BUF and an output outside
it, changing nothing; one whose checks pass does what the seven stage commands do one after another, with the
store's operands in ARG0 and ARG1: it completes with the transform arrays and BUF they leave or, where the store meets a NaN,
aborts with its FormatError and writes no byte. That UNSPECIFIED entries (XT, and XA and samples outside P-XF.2) come out equal
too, where no law holds of them (R12), is the model's draw counter, which both sides move alike, an error included (log 2). -/
def Obligations.XfRestoreIsItsStages : Prop :=
  ∀ (s : State) (d : BitVec 4), ∀ n : Nat, n = 2 ^ d.toNat → ∀ lo hi : Int,
    lo = min ((s.arg 3).toNat : Int) ((s.arg 3).toNat + (s.arg 4).toInt * ((n : Int) - 1)) →
    hi = max ((s.arg 3).toNat : Int) ((s.arg 3).toNat + (s.arg 4).toInt * ((n : Int) - 1)) + 2 →
    (degreeOk d = false → exec (.xfRestore d) s = .next (s.aborted 9 10 5 (d.setWidth 32)))
    ∧ (degreeOk d = true → s.arg 4 = 0 → exec (.xfRestore d) s = .next (s.aborted 9 10 5 0))
    ∧ (degreeOk d = true → s.arg 4 ≠ 0 → s.cfg.bufSize < (s.arg 0).toNat + 4 * n →
      exec (.xfRestore d) s = .next (s.aborted 9 10 6 (s.arg 0)))
    ∧ (degreeOk d = true → s.arg 4 ≠ 0 → (s.arg 0).toNat + 4 * n ≤ s.cfg.bufSize → lo < 0 ∨ (s.cfg.bufSize : Int) < hi →
      exec (.xfRestore d) s = .next (s.aborted 9 10 6 (s.arg 3)))
    ∧ (degreeOk d = true → s.err = false → s.tainted = false → s.arg 4 ≠ 0 → (s.arg 0).toNat + 4 * n ≤ s.cfg.bufSize →
      0 ≤ lo → hi ≤ (s.cfg.bufSize : Int) →
      ∃ s1 s2 s3 s4 s5 s6 s7 t, exec (.xfLoadq d) s = .next s1 ∧ exec (.xfIquant d) s1 = .next s2
        ∧ exec (.xfGivens d) s2 = .next s3 ∧ exec (.xfIplot d) s3 = .next s4 ∧ exec (.xfIlot d) s4 = .next s5
        ∧ exec (.xfIdct d) s5 = .next s6
        ∧ exec (.xfStore16 d) { s6 with args := (s6.args.set 0 (s.arg 3)).set 1 (s.arg 4) } = .next s7
        ∧ exec (.xfRestore d) s = .next t
        ∧ (if s7.err then s7.errcode = 0x6901 ∧ t.err = true ∧ t.errcode = 0xA901 ∧ t.errinfo = s7.errinfo ∧ t.buf = s.buf
            ∧ t.draws = s7.draws
          else t = { s with xf := s7.xf, buf := s7.buf, draws := s7.draws }.finished))

/-! ## Invariants of every step -/

/-- 20_memory.md R101, 10_state.md R32, 60_exceptions.md R505: every step, of the engine or the host, keeps BUF canonical and inside
its size, the reserved IRQEN bits 0 and the race mark on pending commands only (the canonical form and the mark are the model's own,
logs 3 and 15). -/
def Obligations.StepKeepsBuf : Prop := ∀ s t : State, s.BufInv → step s = .next t → t.BufInv

/-- 41_range_coder.md R226: every step keeps an initialised model good: the cumulative frequencies strictly rise from 0 to the
total, every count is at least 1 and the counts with what is left to count add up to the total, and the search shortcut points at
the symbol of each bucket's first target. -/
def Obligations.StepKeepsQsModel : Prop := ∀ s t : State, s.QsInv → step s = .next t → t.QsInv

/-- 44_lzss.md R340, 10_state.md R46, 90_conflicts.md C9: every step keeps an initialised window's size legal and its write
position inside, and a loaded key's derived key derived. -/
def Obligations.StepKeepsUnits : Prop := ∀ s t : State, s.UnitInv → step s = .next t → t.UnitInv

/-- 42_huffman.md R285, items 1, 2, 4 and 5: every step keeps each tree of an initialised decoder empty or such that an internal
node weighs what its children do and is their parent, the weights rise from the lowest node, a leaf, to the root, nodes come in
pairs, and ESC is the one escape leaf. Of item 3 what R265 and R266 as written keep: the root weighs at most 0x4000 (log 25). -/
def Obligations.StepKeepsTrees : Prop := ∀ s t : State, s.TreeInv → step s = .next t → t.TreeInv

/-- 10_state.md R55: the state after reset meets the four invariants. -/
def Obligations.ResetMeetsInvariants : Prop :=
  State.reset.BufInv ∧ State.reset.QsInv ∧ State.reset.UnitInv ∧ State.reset.TreeInv
end

