-- ==== Sys2Proof/Laws/Store.lean ====
section
/-! SUPPORT. The laws of arrays and of BUF: a read after a write, and the canonical form kept by every operation. -/

namespace Sys2Proof.Machine

variable {w : Nat}

@[simp] theorem cellAt_nil (b : Nat) : cellAt ([] : List (Nat × BitVec w)) b = none := rfl

theorem cellAt_cons (k : Nat) (u : BitVec w) (rest : List (Nat × BitVec w)) (b : Nat) :
    cellAt ((k, u) :: rest) b = if b = k then some u else cellAt rest b := rfl

theorem cellAt_put (cells : List (Nat × BitVec w)) (a b : Nat) (v : BitVec w) :
    cellAt (cellPut cells a v) b = if b = a then some v else cellAt cells b := by
  induction cells with
  | nil => simp [cellPut, cellAt_cons]
  | cons c rest ih =>
    obtain ⟨k, u⟩ := c
    simp only [cellPut]
    split
    · simp [cellAt_cons]
    · split
      · next h => subst h; simp only [cellAt_cons]; split <;> rfl
      · next h =>
        simp only [cellAt_cons, ih]
        by_cases hk : b = k
        · rw [if_pos hk, if_pos hk, if_neg (fun e => h (e.symm.trans hk))]
        · rw [if_neg hk, if_neg hk]

theorem cellAt_drop (cells : List (Nat × BitVec w)) (a b : Nat) :
    cellAt (cellDrop cells a) b = if b = a then none else cellAt cells b := by
  induction cells with
  | nil => simp [cellDrop]
  | cons c rest ih =>
    obtain ⟨k, u⟩ := c
    simp only [cellDrop]
    split
    · next h => subst h; simp only [ih, cellAt_cons]; split <;> rfl
    · next h =>
      simp only [cellAt_cons, ih]
      by_cases hk : b = k
      · rw [if_pos hk, if_pos hk, if_neg (fun e => h (e.symm.trans hk))]
      · rw [if_neg hk, if_neg hk]

theorem isRestValue_eq {r : Rest w} {v : BitVec w} (h : isRestValue r v = true) (a : Nat) : restValue r a = v := by
  cases r with
  | known d => exact (beq_iff_eq.mp h).symm
  | free e o => simp [isRestValue] at h

/-- A read after a write of one entry. -/
theorem Store.get_set (s : Store w) (a b : Nat) (v : BitVec w) :
    (s.set a v).get b = if b = a then v else s.get b := by
  unfold Store.set
  split
  · next h =>
    simp only [Store.get, cellAt_drop]
    split
    · simp [isRestValue_eq h]
    · rfl
  · simp only [Store.get, cellAt_put]
    split <;> rfl

@[simp] theorem Store.get_set_same (s : Store w) (a : Nat) (v : BitVec w) : (s.set a v).get a = v := by
  simp [Store.get_set]

theorem Store.get_set_other (s : Store w) {a b : Nat} (v : BitVec w) (h : b ≠ a) : (s.set a v).get b = s.get b := by
  simp [Store.get_set, h]

@[simp] theorem Store.rest_set (s : Store w) (a : Nat) (v : BitVec w) : (s.set a v).rest = s.rest := by
  unfold Store.set; split <;> rfl

theorem cellAt_append (xs ys : List (Nat × BitVec w)) (b : Nat) :
    cellAt (xs ++ ys) b = (cellAt xs b).or (cellAt ys b) := by
  induction xs with
  | nil => rfl
  | cons c rest ih =>
    obtain ⟨k, u⟩ := c
    simp only [List.cons_append, cellAt_cons, ih]
    split <;> rfl

theorem cellAt_filter (cells : List (Nat × BitVec w)) (p : Nat → Bool) (b : Nat) :
    cellAt (cells.filter (fun c => p c.1)) b = if p b then cellAt cells b else none := by
  induction cells with
  | nil => simp
  | cons c rest ih =>
    obtain ⟨k, u⟩ := c
    by_cases hp : p k
    · simp only [List.filter_cons_of_pos (p := fun c => p c.1) (a := (k, u)) hp, cellAt_cons, ih]
      by_cases hb : b = k
      · subst hb; simp [hp]
      · simp [hb]
    · simp only [List.filter_cons_of_neg (p := fun c => p c.1) (a := (k, u)) hp, cellAt_cons, ih]
      by_cases hb : b = k
      · subst hb; simp [hp]
      · simp [hb]

theorem span_step {base n b : Nat} (h : ¬ b = base) (x y : BitVec w) :
    (if base + 1 ≤ b ∧ b < base + 1 + n then x else y) = if base ≤ b ∧ b < base + (n + 1) then x else y := by
  by_cases hb : base ≤ b ∧ b < base + (n + 1)
  · rw [if_pos hb, if_pos (by omega)]
  · rw [if_neg hb, if_neg (by omega)]

theorem cellAt_span (r : Rest w) (base n : Nat) (f : Nat → BitVec w) (b : Nat) :
    (cellAt (spanCells r base n f) b).getD (restValue r b) =
      if base ≤ b ∧ b < base + n then f b else restValue r b := by
  induction n generalizing base with
  | zero => rw [if_neg (by omega)]; rfl
  | succ n ih =>
    simp only [spanCells]
    split
    · next h =>
      rw [ih]
      by_cases hb : b = base
      · subst hb; simp [isRestValue_eq h]
      · exact span_step hb _ _
    · simp only [cellAt_cons]
      by_cases hb : b = base
      · subst hb; simp
      · simp only [hb, if_false, ih]
        rw [span_step hb]

theorem cellAt_span_out (r : Rest w) (base n : Nat) (f : Nat → BitVec w) (b : Nat) (h : b < base ∨ base + n ≤ b) :
    cellAt (spanCells r base n f) b = none := by
  induction n generalizing base with
  | zero => rfl
  | succ n ih =>
    simp only [spanCells]
    split
    · exact ih _ (by omega)
    · simp only [cellAt_cons]
      rw [if_neg (by omega), ih _ (by omega)]

/-- A read after a write of a whole span. -/
theorem Store.get_setSpan (s : Store w) (base n : Nat) (f : Nat → BitVec w) (b : Nat) :
    (s.setSpan base n f).get b = if base ≤ b ∧ b < base + n then f b else s.get b := by
  unfold Store.setSpan Store.get
  simp only [cellAt_append]
  rw [cellAt_filter s.cells (fun k => decide (k < base)), cellAt_filter s.cells (fun k => decide (base + n ≤ k))]
  by_cases h1 : b < base
  · rw [cellAt_span_out _ _ _ _ _ (.inl h1)]
    simp [h1, show ¬ (base ≤ b) by omega, show ¬ (base + n ≤ b) by omega]
  · by_cases h2 : base + n ≤ b
    · rw [cellAt_span_out _ _ _ _ _ (.inr h2)]
      simp [h1, h2, show ¬ (b < base + n) by omega]
    · simp only [h1, h2, decide_false]
      have := cellAt_span s.rest base n f b
      rw [if_pos (by omega)] at this
      simpa [show base ≤ b by omega, show b < base + n by omega] using this

@[simp] theorem Store.rest_setSpan (s : Store w) (base n : Nat) (f : Nat → BitVec w) :
    (s.setSpan base n f).rest = s.rest := rfl

/-- A read after writes of listed entries. -/
theorem Store.get_setEach (s : Store w) (entries : List Nat) (f : Nat → BitVec w) (b : Nat) :
    (s.setEach entries f).get b = if b ∈ entries then f b else s.get b := by
  induction entries generalizing s with
  | nil => simp [Store.setEach]
  | cons a rest ih =>
    simp only [Store.setEach, ih, Store.get_set, List.mem_cons]
    by_cases h1 : b ∈ rest
    · simp [h1]
    · by_cases h2 : b = a <;> simp [h1, h2]

/-! ## The canonical form -/

theorem rising_mono {lo hi : Nat} {cells : List (Nat × BitVec w)} (h : lo ≤ hi) (hr : risingFrom hi cells = true) :
    risingFrom lo cells = true := by
  cases cells with
  | nil => rfl
  | cons c rest =>
    obtain ⟨k, u⟩ := c
    simp only [risingFrom, Bool.and_eq_true, decide_eq_true_eq] at hr ⊢
    exact ⟨by omega, hr.2⟩

theorem rising_put {lo a : Nat} {cells : List (Nat × BitVec w)} {v : BitVec w} (h : lo ≤ a)
    (hr : risingFrom lo cells = true) : risingFrom lo (cellPut cells a v) = true := by
  induction cells generalizing lo with
  | nil => simp [cellPut, risingFrom, h]
  | cons c rest ih =>
    obtain ⟨k, u⟩ := c
    simp only [risingFrom, Bool.and_eq_true, decide_eq_true_eq] at hr
    simp only [cellPut]
    split
    · next hk =>
      simp only [risingFrom, Bool.and_eq_true, decide_eq_true_eq]
      exact ⟨h, by omega, hr.2⟩
    · split
      · next hk => subst hk; simp [risingFrom, h, hr.2]
      · next h1 h2 =>
        simp only [risingFrom, Bool.and_eq_true, decide_eq_true_eq]
        exact ⟨hr.1, ih (by omega) hr.2⟩

theorem rising_filter {lo : Nat} {cells : List (Nat × BitVec w)} (p : Nat × BitVec w → Bool)
    (hr : risingFrom lo cells = true) : risingFrom lo (cells.filter p) = true := by
  induction cells generalizing lo with
  | nil => rfl
  | cons c rest ih =>
    obtain ⟨k, u⟩ := c
    simp only [risingFrom, Bool.and_eq_true, decide_eq_true_eq] at hr
    simp only [List.filter_cons]
    split
    · simp only [risingFrom, Bool.and_eq_true, decide_eq_true_eq]; exact ⟨hr.1, ih hr.2⟩
    · exact rising_mono (by omega) (ih hr.2)

theorem cellDrop_eq_filter (cells : List (Nat × BitVec w)) (a : Nat) :
    cellDrop cells a = cells.filter (fun c => decide (a ≠ c.1)) := by
  induction cells with
  | nil => rfl
  | cons c rest ih =>
    obtain ⟨k, u⟩ := c
    simp only [cellDrop, List.filter_cons, ih]
    by_cases h : a = k <;> simp [h]

theorem mem_cellPut {cells : List (Nat × BitVec w)} {a : Nat} {v : BitVec w} {c : Nat × BitVec w}
    (h : c ∈ cellPut cells a v) : c = (a, v) ∨ c ∈ cells := by
  induction cells with
  | nil => exact .inl (by simpa [cellPut] using h)
  | cons d rest ih =>
    obtain ⟨k, u⟩ := d
    simp only [cellPut] at h
    split at h
    · rcases List.mem_cons.mp h with h | h
      · exact .inl h
      · exact .inr h
    · split at h
      · rcases List.mem_cons.mp h with h | h
        · exact .inl h
        · exact .inr (List.mem_cons_of_mem _ h)
      · rcases List.mem_cons.mp h with h | h
        · exact .inr (by simp [h])
        · rcases ih h with h | h
          · exact .inl h
          · exact .inr (List.mem_cons_of_mem _ h)

/-- What the canonical form says. -/
theorem Store.wf_iff (s : Store w) :
    s.wf = true ↔ risingFrom 0 s.cells = true ∧ ∀ c ∈ s.cells, isRestValue s.rest c.2 = false := by
  simp [Store.wf, List.all_eq_true]

/-- A write of one entry keeps the canonical form. -/
theorem Store.set_wf {s : Store w} (h : s.wf = true) (a : Nat) (v : BitVec w) : (s.set a v).wf = true := by
  rw [Store.wf_iff] at h ⊢
  unfold Store.set
  split
  · rw [cellDrop_eq_filter]
    exact ⟨rising_filter _ h.1, fun c hc => h.2 c (List.mem_of_mem_filter hc)⟩
  · next hv =>
    refine ⟨rising_put (Nat.zero_le a) h.1, fun c hc => ?_⟩
    rcases mem_cellPut hc with rfl | hc
    · simpa using hv
    · exact h.2 c hc

theorem mem_spanCells {r : Rest w} {base n : Nat} {f : Nat → BitVec w} {c : Nat × BitVec w}
    (h : c ∈ spanCells r base n f) : base ≤ c.1 ∧ c.1 < base + n ∧ isRestValue r c.2 = false := by
  induction n generalizing base with
  | zero => simp [spanCells] at h
  | succ n ih =>
    simp only [spanCells] at h
    split at h
    · have := ih h; exact ⟨by omega, by omega, this.2.2⟩
    · next hv =>
      rcases List.mem_cons.mp h with rfl | h
      · exact ⟨Nat.le_refl _, by simp, by simpa using hv⟩
      · have := ih h; exact ⟨by omega, by omega, this.2.2⟩

theorem rising_span (r : Rest w) (base n : Nat) (f : Nat → BitVec w) :
    risingFrom base (spanCells r base n f) = true := by
  induction n generalizing base with
  | zero => rfl
  | succ n ih =>
    simp only [spanCells]
    split
    · exact rising_mono (by omega) (ih (base + 1))
    · simp [risingFrom, ih]

theorem rising_append {lo mid : Nat} {xs ys : List (Nat × BitVec w)} (hl : lo ≤ mid)
    (hx : risingFrom lo xs = true) (hb : ∀ c ∈ xs, c.1 < mid) (hy : risingFrom mid ys = true) :
    risingFrom lo (xs ++ ys) = true := by
  induction xs generalizing lo with
  | nil => exact rising_mono hl hy
  | cons c rest ih =>
    obtain ⟨k, u⟩ := c
    simp only [risingFrom, Bool.and_eq_true, decide_eq_true_eq, List.cons_append] at hx ⊢
    have hk : k < mid := hb (k, u) (by simp)
    exact ⟨hx.1, ih (by omega) hx.2 (fun c hc => hb c (List.mem_cons_of_mem _ hc))⟩

theorem rising_tail {lo hi : Nat} {cells : List (Nat × BitVec w)} (hr : risingFrom lo cells = true) :
    risingFrom hi (cells.filter (fun c => decide (hi ≤ c.1))) = true := by
  induction cells generalizing lo with
  | nil => rfl
  | cons c rest ih =>
    obtain ⟨k, u⟩ := c
    simp only [risingFrom, Bool.and_eq_true, decide_eq_true_eq] at hr
    by_cases h : hi ≤ k
    · rw [List.filter_cons_of_pos (by simpa using h)]
      simp only [risingFrom, Bool.and_eq_true, decide_eq_true_eq]
      exact ⟨h, rising_filter _ hr.2⟩
    · rw [List.filter_cons_of_neg (by simpa using h)]
      exact ih hr.2

/-- A write of a span keeps the canonical form. -/
theorem Store.setSpan_wf {s : Store w} (h : s.wf = true) (base n : Nat) (f : Nat → BitVec w) :
    (s.setSpan base n f).wf = true := by
  rw [Store.wf_iff] at h ⊢
  refine ⟨?_, fun c hc => ?_⟩
  · refine rising_append (mid := base + n) (Nat.zero_le _)
      (rising_append (mid := base) (Nat.zero_le _) (rising_filter _ h.1) ?_ (rising_span _ _ _ _)) ?_ (rising_tail h.1)
    · intro c hc; simpa using (List.mem_filter.mp hc).2
    · intro c hc
      rcases List.mem_append.mp hc with hc | hc
      · have : c.1 < base := by simpa using (List.mem_filter.mp hc).2
        omega
      · exact (mem_spanCells hc).2.1
  · simp only [Store.setSpan, List.mem_append] at hc
    rcases hc with (hc | hc) | hc
    · exact h.2 c (List.mem_of_mem_filter hc)
    · exact (mem_spanCells hc).2.2
    · exact h.2 c (List.mem_of_mem_filter hc)

/-- Writes of listed entries keep the canonical form. -/
theorem Store.setEach_wf {s : Store w} (h : s.wf = true) (entries : List Nat) (f : Nat → BitVec w) :
    (s.setEach entries f).wf = true := by
  induction entries generalizing s with
  | nil => exact h
  | cons a rest ih => exact ih (Store.set_wf h a (f a))

/-- Losing a prefix of an array keeps the canonical form. -/
theorem Store.lose_wf {s : Store w} (h : s.wf = true) (event n : Nat) : (s.lose event n).wf = true :=
  Store.setSpan_wf h _ _ _

theorem blankStore_wf (v : BitVec w) : (blankStore v).wf = true := rfl

theorem freeStore_wf (event offset : Nat) : (freeStore event offset : Store w).wf = true := rfl

/-- A command's byte write keeps BUF's canonical form. -/
theorem putByte_wf {taint : Option Nat} {buf : Store 8} (h : buf.wf = true) (a : Nat) (b : Byte) :
    (putByte taint buf a b).wf = true := Store.set_wf h _ _

/-- A little-endian write keeps BUF's canonical form. -/
theorem memWriteLE_wf {taint : Option Nat} {buf : Store 8} (h : buf.wf = true) (addr n v : Nat) :
    (memWriteLE taint buf addr n v).wf = true := Store.setSpan_wf h _ _ _

/-- A big-endian write keeps BUF's canonical form. -/
theorem memWriteBE_wf {taint : Option Nat} {buf : Store 8} (h : buf.wf = true) (addr n v : Nat) :
    (memWriteBE taint buf addr n v).wf = true := Store.setSpan_wf h _ _ _

/-- BUF has its canonical form after a hardware reset. -/
theorem reset_buf_wf : State.reset.buf.wf = true := rfl

/-! ## Reads of written bytes -/

theorem putByte_get (buf : Store 8) (a b : Nat) (v : Byte) :
    (putByte none buf a v).get b = if b = a then v else buf.get b := Store.get_set buf a b v

theorem memWriteLE_get (buf : Store 8) (addr n v b : Nat) :
    (memWriteLE none buf addr n v).get b = if addr ≤ b ∧ b < addr + n then leByte v (b - addr) else buf.get b :=
  Store.get_setSpan _ _ _ _ _

theorem memWriteBE_get (buf : Store 8) (addr n v b : Nat) :
    (memWriteBE none buf addr n v).get b =
      if addr ≤ b ∧ b < addr + n then leByte v (n - 1 - (b - addr)) else buf.get b :=
  Store.get_setSpan _ _ _ _ _

/-- A write leaves every byte outside its span alone, raced or not. -/
theorem memWriteLE_get_out {taint : Option Nat} {buf : Store 8} {addr n v b : Nat} (h : b < addr ∨ addr + n ≤ b) :
    (memWriteLE taint buf addr n v).get b = buf.get b := by
  unfold memWriteLE
  rw [Store.get_setSpan, if_neg (by omega)]

theorem memWriteBE_get_out {taint : Option Nat} {buf : Store 8} {addr n v b : Nat} (h : b < addr ∨ addr + n ≤ b) :
    (memWriteBE taint buf addr n v).get b = buf.get b := by
  unfold memWriteBE
  rw [Store.get_setSpan, if_neg (by omega)]

theorem putByte_get_out {taint : Option Nat} {buf : Store 8} {a b : Nat} {v : Byte} (h : b ≠ a) :
    (putByte taint buf a v).get b = buf.get b := Store.get_set_other _ _ h

end Sys2Proof.Machine
end

