-- ==== Sys2Proof/Laws/Commands.lean ====
section
/-! SUPPORT. What each shared operation of a command can do, said once: the checks, the two ends of a command, the source and
destination primitives. -/

namespace Sys2Proof.Machine

/-! ## Checks -/

theorem require_ok {c : Bool} {e : Err} {info : Word} : require c e info = .ok () ↔ c = true := by
  cases c <;> simp [require, raise]

theorem require_error {c : Bool} {e : Err} {info : Word} {r : Raise} :
    require c e info = .error r ↔ c = false ∧ r = ⟨e, info⟩ := by
  cases c <;> simp [require, raise, eq_comm]

@[simp] theorem require_true (e : Err) (info : Word) : require true e info = .ok () := rfl

@[simp] theorem require_false (e : Err) (info : Word) : require false e info = .error ⟨e, info⟩ := rfl

@[simp] theorem Run.ok_bind {α β : Type} (a : α) (f : α → Run β) : (Except.ok a >>= f : Run β) = f a := rfl

@[simp] theorem Run.error_bind {α β : Type} (r : Raise) (f : α → Run β) : (Except.error r >>= f : Run β) = .error r := rfl

/-- A computation in two parts answers a value just when both parts do. -/
theorem Run.bind_ok {α β : Type} {x : Run α} {f : α → Run β} {b : β} :
    (x >>= f) = .ok b ↔ ∃ a, x = .ok a ∧ f a = .ok b := by
  cases x <;> simp

/-! ## The shape of a command -/

/-- Everything a command can do: abort at a check, complete, or abort in its body. -/
theorem runCommand_cases {s t : State} {id : CmdId} {checks : Run Unit} {body : Run State} {after : State}
    (h : runCommand s id checks body after = .next t) :
    (∃ r, checks = .error r ∧ t = s.abort id r) ∨
    (∃ u, checks = .ok () ∧ body = .ok u ∧ t = u.complete) ∨
    (∃ r, checks = .ok () ∧ body = .error r ∧ t = after.abort id r) := by
  unfold runCommand at h
  split at h
  · next r =>
    injection h with h
    exact .inl ⟨r, rfl, h.symm⟩
  · split at h
    · next u =>
      injection h with h
      exact .inr (.inl ⟨u, rfl, rfl, h.symm⟩)
    · next r =>
      injection h with h
      exact .inr (.inr ⟨r, rfl, rfl, h.symm⟩)

/-- A command whose checks pass and whose body answers completes. -/
theorem runCommand_complete {s u : State} {id : CmdId} {checks : Run Unit} {body : Run State} {after : State}
    (hc : checks = .ok ()) (hb : body = .ok u) : runCommand s id checks body after = .next u.complete := by
  subst hc hb; rfl

/-- A command that fails a check changes nothing but the registers of an abort. -/
theorem runCommand_refuse {s : State} {id : CmdId} {checks : Run Unit} {body : Run State} {after : State} {r : Raise}
    (hc : checks = .error r) : runCommand s id checks body after = .next (s.abort id r) := by
  subst hc; rfl

/-- A command whose checks pass and whose body raises an error leaves `after` with the registers of an abort. -/
theorem runCommand_fail {s : State} {id : CmdId} {checks : Run Unit} {body : Run State} {after : State} {r : Raise}
    (hc : checks = .ok ()) (hb : body = .error r) : runCommand s id checks body after = .next (after.abort id r) := by
  subst hc hb; rfl

/-- A command always has a next state. -/
theorem runCommand_next (s : State) (id : CmdId) (checks : Run Unit) (body : Run State) (after : State) :
    ∃ t, runCommand s id checks body after = .next t := by
  unfold runCommand
  split
  · exact ⟨_, rfl⟩
  · split <;> exact ⟨_, rfl⟩

/-! ## Source primitives -/

theorem bitNat_lt (b : Bool) : bitNat b < 2 := by cases b <;> decide

/-- A bit read at the end of the source. -/
theorem srcBit_end {e : Env} {io : Io} (h : 8 * e.srcLen ≤ io.pos) :
    srcBit e io = .error ⟨.truncatedInput, wordOf io.pos⟩ := by
  simp [srcBit, h, raise]

/-- A byte read at the end of the source. -/
theorem srcByte_end {e : Env} {io : Io} (h : 8 * e.srcLen ≤ alignUp io.pos) :
    srcByte e io = .error ⟨.truncatedInput, wordOf (alignUp io.pos)⟩ := by
  simp [srcByte, h, raise]

/-- Everything a bit read can do. -/
theorem srcBit_ok {e : Env} {io io' : Io} {b : Nat} :
    srcBit e io = .ok (b, io') ↔
      io.pos < 8 * e.srcLen ∧ b = bitNat (bitAt e io.buf io.pos) ∧ io' = { io with pos := io.pos + 1 } := by
  unfold srcBit
  split
  · next h => constructor
              · intro h'; cases h'
              · intro h'; omega
  · next h =>
    constructor
    · intro h'; cases h'; exact ⟨by omega, rfl, rfl⟩
    · rintro ⟨-, rfl, rfl⟩; rfl

/-- A bit read inside the span. -/
theorem srcBit_of_lt {e : Env} {io : Io} (h : io.pos < 8 * e.srcLen) :
    srcBit e io = .ok (bitNat (bitAt e io.buf io.pos), { io with pos := io.pos + 1 }) :=
  srcBit_ok.mpr ⟨h, rfl, rfl⟩

/-- Everything a byte read can do. -/
theorem srcByte_ok {e : Env} {io io' : Io} {b : Byte} :
    srcByte e io = .ok (b, io') ↔
      alignUp io.pos < 8 * e.srcLen ∧ b = io.buf.get (e.srcBase + alignUp io.pos / 8)
        ∧ io' = { io with pos := alignUp io.pos + 8 } := by
  unfold srcByte
  dsimp only
  split
  · next h => constructor
              · intro h'; cases h'
              · intro h'; omega
  · next h =>
    constructor
    · intro h'; cases h'; exact ⟨by omega, rfl, rfl⟩
    · rintro ⟨-, rfl, rfl⟩; rfl

theorem srcByte_of_lt {e : Env} {io : Io} (h : alignUp io.pos < 8 * e.srcLen) :
    srcByte e io = .ok (io.buf.get (e.srcBase + alignUp io.pos / 8), { io with pos := alignUp io.pos + 8 }) :=
  srcByte_ok.mpr ⟨h, rfl, rfl⟩

theorem alignUp_ge (p : Nat) : p ≤ alignUp p := by unfold alignUp; omega

theorem alignUp_lt (p : Nat) : alignUp p < p + 8 := by unfold alignUp; omega

theorem alignUp_mod (p : Nat) : alignUp p % 8 = 0 := by unfold alignUp; omega

theorem alignUp_of_mod {p : Nat} (h : p % 8 = 0) : alignUp p = p := by unfold alignUp; omega

/-- A read of `n` bits inside the span advances the cursor by `n` and changes nothing else. -/
theorem srcBitsFrom_ok {e : Env} {n i v : Nat} {io : Io} (h : io.pos + n ≤ 8 * e.srcLen) :
    ∃ r, srcBitsFrom e n i v io = .ok (r, { io with pos := io.pos + n }) := by
  induction n generalizing i v io with
  | zero => exact ⟨v, rfl⟩
  | succ n ih =>
    have hb := srcBit_of_lt (e := e) (io := io) (by omega)
    simp only [srcBitsFrom, hb]
    obtain ⟨r, hr⟩ := ih (i := i + 1)
      (v := if e.lsb then v + bitNat (bitAt e io.buf io.pos) * 2 ^ i else 2 * v + bitNat (bitAt e io.buf io.pos))
      (io := { io with pos := io.pos + 1 }) (by simp; omega)
    refine ⟨r, hr.trans ?_⟩
    simp [Nat.add_assoc, Nat.add_comm 1 n]

/-- What a completed read of `n` bits says: the cursor moved by `n`, inside the span. -/
theorem srcBitsFrom_cases {e : Env} {n i v r : Nat} {io io' : Io} (h : srcBitsFrom e n i v io = .ok (r, io')) :
    io' = { io with pos := io.pos + n } ∧ (0 < n → io.pos + n ≤ 8 * e.srcLen) := by
  induction n generalizing i v io with
  | zero => simp only [srcBitsFrom, Except.ok.injEq, Prod.mk.injEq] at h; exact ⟨h.2.symm, by omega⟩
  | succ n ih =>
    simp only [srcBitsFrom] at h
    split at h
    · cases h
    · next b io1 hb =>
      obtain ⟨h1, -, rfl⟩ := srcBit_ok.mp hb
      obtain ⟨rfl, h2⟩ := ih h
      refine ⟨by simp [Nat.add_assoc, Nat.add_comm 1 n], fun _ => ?_⟩
      rcases Nat.eq_zero_or_pos n with rfl | hn
      · omega
      · have := h2 hn; simp at this; omega

/-! ## Destination primitive -/

@[simp] theorem dstPut_pos (e : Env) (io : Io) (b : Byte) : (dstPut e io b).pos = io.pos := rfl

@[simp] theorem dstPut_out (e : Env) (io : Io) (b : Byte) : (dstPut e io b).out = io.out + 1 := rfl

theorem dstPut_get_out {e : Env} {io : Io} {b : Byte} {a : Nat} (h : a ≠ e.dstBase + io.out) :
    (dstPut e io b).buf.get a = io.buf.get a := putByte_get_out h

theorem dstFull_false {e : Env} {io : Io} : dstFull e io = false ↔ io.out < e.dstLen := by
  simp [dstFull]

/-! ## Register values -/

@[simp] theorem wordOf_toNat_word (w : Word) : wordOf w.toNat = w := by simp [wordOf]

theorem wordOf_toNat {n : Nat} (h : n < 2 ^ 32) : (wordOf n).toNat = n := by simp [wordOf]; omega

end Sys2Proof.Machine
end

