-- ==== Sys2Proof/Laws/Models.lean ====
section
/-! SUPPORT. Equal arrays are equal data, and what the search rebuild of `QsDoRescale` leaves in each bucket. -/

namespace Sys2Proof.Machine

/-- In a rising list nothing is listed below its start. -/
theorem cellAt_below {w : Nat} {lo : Nat} {cells : List (Nat × BitVec w)} (h : risingFrom lo cells = true) {a : Nat} (ha : a < lo) :
    cellAt cells a = none := by
  induction cells generalizing lo with
  | nil => rfl
  | cons c rest ih =>
    obtain ⟨k, v⟩ := c
    simp only [risingFrom, Bool.and_eq_true, decide_eq_true_eq] at h
    rw [cellAt, if_neg (by omega)]
    exact ih h.2 (by omega)

/-- Rising lists with the same entries are equal. -/
theorem cells_ext {w : Nat} {lo : Nat} {xs ys : List (Nat × BitVec w)} (hx : risingFrom lo xs = true)
    (hy : risingFrom lo ys = true) (h : ∀ a, cellAt xs a = cellAt ys a) : xs = ys := by
  induction xs generalizing lo ys with
  | nil =>
    cases ys with
    | nil => rfl
    | cons c rest => have := h c.1; simp [cellAt] at this
  | cons c rest ih =>
    obtain ⟨k, v⟩ := c
    cases ys with
    | nil => have := h k; simp [cellAt] at this
    | cons d rest' =>
      obtain ⟨k', v'⟩ := d
      simp only [risingFrom, Bool.and_eq_true, decide_eq_true_eq] at hx hy
      have hk : k = k' := by
        rcases Nat.lt_trichotomy k k' with hlt | heq | hlt
        · have := h k
          rw [cellAt, if_pos rfl, cellAt, if_neg (by omega), cellAt_below hy.2 (by omega)] at this
          cases this
        · exact heq
        · have := h k'
          rw [cellAt, if_neg (by omega), cellAt_below hx.2 (by omega), cellAt, if_pos rfl] at this
          cases this
      subst hk
      have hv : v = v' := by simpa [cellAt] using h k
      subst hv
      rw [ih hx.2 hy.2 (fun a => ?_)]
      by_cases ha : a = k
      · rw [ha, cellAt_below hx.2 (by omega), cellAt_below hy.2 (by omega)]
      · simpa [cellAt, ha] using h a

/-- What a canonical array lists is not what the rest reads as. -/
theorem listed_ne {w : Nat} {s : Store w} {d v : BitVec w} (h : s.wf = true) (hr : s.rest = .known d) {a : Nat}
    (ha : cellAt s.cells a = some v) : v ≠ d := by
  have hall : ∀ c ∈ s.cells, isRestValue s.rest c.2 = false := by
    intro c hc
    simp only [Store.wf, Bool.and_eq_true, List.all_eq_true] at h
    simpa using h.2 c hc
  have hmem : (a, v) ∈ s.cells := by
    clear h hall hr
    revert ha
    induction s.cells with
    | nil => intro ha; cases ha
    | cons c rest ih =>
      intro ha
      obtain ⟨k, u⟩ := c
      by_cases hk : a = k
      · rw [cellAt, if_pos hk] at ha
        injection ha with ha
        simp [hk, ha]
      · rw [cellAt, if_neg hk] at ha
        exact List.mem_cons_of_mem _ (ih ha)
  intro hv
  have := hall _ hmem
  simp [isRestValue, hr, hv] at this

/-- Canonical arrays with the same known rest and the same entries are equal. -/
theorem Store.ext_known {w : Nat} {s t : Store w} {d : BitVec w} (hs : s.wf = true) (ht : t.wf = true) (rs : s.rest = .known d)
    (rt : t.rest = .known d) (h : ∀ a, s.get a = t.get a) : s = t := by
  have hc : s.cells = t.cells := by
    have h1 := hs; have h2 := ht
    simp only [Store.wf, Bool.and_eq_true] at h1 h2
    refine cells_ext h1.1 h2.1 (fun a => ?_)
    have ha := h a
    simp only [Store.get, rs, rt, restValue] at ha
    cases hx : cellAt s.cells a with
    | none =>
      cases hy : cellAt t.cells a with
      | none => rfl
      | some v => rw [hx, hy] at ha; exact absurd ha.symm (listed_ne ht rt hy)
    | some u =>
      cases hy : cellAt t.cells a with
      | none => rw [hx, hy] at ha; exact absurd ha (listed_ne hs rs hx)
      | some v => rw [hx, hy] at ha; simpa using ha
  cases s; cases t; simp_all

/-- The value bucket `j` has after the buckets of symbols `n - 1` down to 0 are set: the lowest symbol that reaches it, else `v`. -/
def bucketAt (lo hi : Nat → Nat) (j n : Nat) (v : BitVec 16) : BitVec 16 :=
  match n with
  | 0 => v
  | i + 1 => bucketAt lo hi j i (if lo i ≤ j ∧ j < hi i + 1 then BitVec.ofNat 16 i else v)

/-- Only the bounds of the symbols below `n` count. -/
theorem bucketAt_congr {lo hi lo' hi' : Nat → Nat} {j n : Nat} {v : BitVec 16} (hl : ∀ i < n, lo i = lo' i)
    (hh : ∀ i < n, hi i = hi' i) : bucketAt lo hi j n v = bucketAt lo' hi' j n v := by
  induction n generalizing v with
  | zero => rfl
  | succ i ih =>
    rw [bucketAt, bucketAt, hl i (by omega), hh i (by omega)]
    exact ih (fun k hk => hl k (by omega)) (fun k hk => hh k (by omega))

/-- A bucket that no symbol reaches keeps its value. -/
theorem bucketAt_out {lo hi : Nat → Nat} {j n : Nat} {v : BitVec 16} (h : ∀ i < n, hi i < j) : bucketAt lo hi j n v = v := by
  induction n generalizing v with
  | zero => rfl
  | succ i ih =>
    have := h i (by omega)
    rw [bucketAt, if_neg (by omega)]
    exact ih (fun k hk => h k (by omega))

/-- Everything the search rebuild (R216) does to one bucket. -/
theorem bucketsFrom_get (cf : Store 16) (shift n : Nat) (search : Store 16) (j : Nat) :
    (bucketsFrom cf shift n search).get j = bucketAt (fun i => (cf.get i).toNat >>> shift)
      (fun i => (cf.get (i + 1) - 1).toNat >>> shift) j n (search.get j) := by
  induction n generalizing search with
  | zero => rfl
  | succ i ih =>
    rw [bucketsFrom, ih, bucketAt, Store.get_setSpan]
    congr 1
    split <;> split <;> first | rfl | omega

theorem bucketsFrom_wf (cf : Store 16) (shift n : Nat) {search : Store 16} (h : search.wf = true) :
    (bucketsFrom cf shift n search).wf = true := by
  induction n generalizing search with
  | zero => exact h
  | succ i ih => exact ih (Store.setSpan_wf h _ _ _)

theorem bucketsFrom_rest (cf : Store 16) (shift n : Nat) (search : Store 16) :
    (bucketsFrom cf shift n search).rest = search.rest := by
  induction n generalizing search with
  | zero => rfl
  | succ i ih => rw [bucketsFrom, ih, Store.rest_setSpan]

/-! ## `QsReset()`, field by field (R217) -/

/-- The reset is one full rescale of the equal frequencies. -/
theorem qsRestart_eq (q : Qs) : ∃ p : Qs, qsRestart q = qsRebuild (qsGrow p) ∧ p.valid = q.valid ∧ p.cf = q.cf ∧ p.search = q.search
    ∧ p.lgTotf = q.lgTotf ∧ p.shift = q.shift ∧ p.target = q.target ∧ p.rescale = 18 := by
  generalize hf : q.newf.setSpan 0 257 (fun i => BitVec.ofNat 16
    (if i < (q.cf.get 257).toNat % 257 then (q.cf.get 257).toNat / 257 + 1 else (q.cf.get 257).toNat / 257)) = newf
  refine ⟨{ q with rescale := 18, nextleft := 0, incr := 0, left := 0, newf := newf }, ?_, rfl, rfl, rfl, rfl, rfl, rfl, rfl⟩
  simp only [qsRestart, hf, qsDoRescale]
  exact if_neg (by simp)

/-- The growth of RESCALE changes no other field (R216). -/
theorem qsGrow_fields (p : Qs) : (qsGrow p).valid = p.valid ∧ (qsGrow p).cf = p.cf ∧ (qsGrow p).search = p.search
    ∧ (qsGrow p).lgTotf = p.lgTotf ∧ (qsGrow p).shift = p.shift ∧ (qsGrow p).target = p.target
    ∧ (qsGrow p).rescale = if p.rescale.toNat < p.target.toNat
      then BitVec.ofNat 32 (min (2 * p.rescale.toNat) p.target.toNat) else p.rescale := by
  unfold qsGrow; split <;> simp_all

/-- What the full rescale keeps and what it sets, the frequencies and counts aside (R216). -/
theorem qsRebuild_fields (q : Qs) : (qsRebuild q).valid = q.valid ∧ (qsRebuild q).lgTotf = q.lgTotf
    ∧ (qsRebuild q).shift = q.shift ∧ (qsRebuild q).target = q.target ∧ (qsRebuild q).rescale = q.rescale
    ∧ (qsRebuild q).search = bucketsFrom (qsRebuild q).cf q.shift.toNat 257 q.search := by
  simp only [qsRebuild, and_self]

/-- What a reset keeps and what it sets, the frequencies and counts aside. -/
theorem qsRestart_fields (q : Qs) : (qsRestart q).valid = q.valid ∧ (qsRestart q).lgTotf = q.lgTotf
    ∧ (qsRestart q).shift = q.shift ∧ (qsRestart q).target = q.target
    ∧ (qsRestart q).rescale = (if 18 < q.target.toNat then BitVec.ofNat 32 (min 36 q.target.toNat) else 18)
    ∧ (qsRestart q).search = bucketsFrom (qsRestart q).cf q.shift.toNat 257 q.search := by
  obtain ⟨p, hp, hv, _, hs, hl, hsh, ht, hr⟩ := qsRestart_eq q
  obtain ⟨gv, _, gs, gl, gsh, gt, gr⟩ := qsGrow_fields p
  rw [hp, ← hv, ← hs, ← hl, ← hsh, ← ht]
  obtain ⟨bv, bl, bsh, bt, br, bs⟩ := qsRebuild_fields (qsGrow p)
  refine ⟨bv.trans gv, bl.trans gl, bsh.trans gsh, bt.trans gt, ?_, ?_⟩
  · rw [br, gr, hr]; simp
  · rw [bs, gs, gsh]

end Sys2Proof.Machine
end

