-- ==== Sys2Proof/Laws/PerInstr.lean ====
section
/-! SUPPORT. Facts about every command's encoding, one lemma per constructor. -/

namespace Sys2Proof.Laws.ReservedZero

/-- The command word of `i` is outside the reserved space of 30_encoding.md R134: its unit is one of 0..9 and every bit of `F`
above the widest immediate is 0. -/
def Statement (i : Instr) : Prop := wordUnit (encode i) ≤ 9 ∧ (encode i).extractLsb' 6 18 = 0

theorem nop : Statement .nop := by unfold Statement; decide
theorem srstUnit (u : BitVec 4) : Statement (.srstUnit u) := by revert u; unfold Statement; decide
theorem brInit (lsb : BitVec 1) : Statement (.brInit lsb) := by revert lsb; unfold Statement; decide
theorem brGetbit : Statement .brGetbit := by unfold Statement; decide
theorem brGetbits (n : BitVec 6) : Statement (.brGetbits n) := by revert n; unfold Statement; decide
theorem brPeekbits (n : BitVec 6) : Statement (.brPeekbits n) := by revert n; unfold Statement; decide
theorem brAlign : Statement .brAlign := by unfold Statement; decide
theorem rcStart : Statement .rcStart := by unfold Statement; decide
theorem rcCulshift (shift : BitVec 5) : Statement (.rcCulshift shift) := by revert shift; unfold Statement; decide
theorem rcUpdate : Statement .rcUpdate := by unfold Statement; decide
theorem rcNormalize : Statement .rcNormalize := by unfold Statement; decide
theorem rcDecode : Statement .rcDecode := by unfold Statement; decide
theorem qsInit (lg : BitVec 4) : Statement (.qsInit lg) := by revert lg; unfold Statement; decide
theorem qsReset : Statement .qsReset := by unfold Statement; decide
theorem qsGetsym : Statement .qsGetsym := by unfold Statement; decide
theorem qsGetfreq : Statement .qsGetfreq := by unfold Statement; decide
theorem qsUpdate : Statement .qsUpdate := by unfold Statement; decide
theorem hufInit (order1 : BitVec 1) : Statement (.hufInit order1) := by revert order1; unfold Statement; decide
theorem hufGetcode : Statement .hufGetcode := by unfold Statement; decide
theorem hufSetctx : Statement .hufSetctx := by unfold Statement; decide
theorem golGamma : Statement .golGamma := by unfold Statement; decide
theorem golRunlen : Statement .golRunlen := by unfold Statement; decide
theorem golValue : Statement .golValue := by unfold Statement; decide
theorem golResetctx : Statement .golResetctx := by unfold Statement; decide
theorem golDecode : Statement .golDecode := by unfold Statement; decide
theorem lzInit : Statement .lzInit := by unfold Statement; decide
theorem lzDecompress (variant : BitVec 4) : Statement (.lzDecompress variant) := by revert variant; unfold Statement; decide
theorem camSetkey : Statement .camSetkey := by unfold Statement; decide
theorem camDecblk : Statement .camDecblk := by unfold Statement; decide
theorem camDecrange : Statement .camDecrange := by unfold Statement; decide
theorem nekoSetkey64 : Statement .nekoSetkey64 := by unfold Statement; decide
theorem nekoSethash : Statement .nekoSethash := by unfold Statement; decide
theorem nekoDecrypt : Statement .nekoDecrypt := by unfold Statement; decide
theorem xfLoadq (degree : BitVec 4) : Statement (.xfLoadq degree) := by revert degree; unfold Statement; decide
theorem xfIquant (degree : BitVec 4) : Statement (.xfIquant degree) := by revert degree; unfold Statement; decide
theorem xfGivens (degree : BitVec 4) : Statement (.xfGivens degree) := by revert degree; unfold Statement; decide
theorem xfIplot (degree : BitVec 4) : Statement (.xfIplot degree) := by revert degree; unfold Statement; decide
theorem xfIlot (degree : BitVec 4) : Statement (.xfIlot degree) := by revert degree; unfold Statement; decide
theorem xfIdct (degree : BitVec 4) : Statement (.xfIdct degree) := by revert degree; unfold Statement; decide
theorem xfStore16 (degree : BitVec 4) : Statement (.xfStore16 degree) := by revert degree; unfold Statement; decide
theorem xfClrcarry : Statement .xfClrcarry := by unfold Statement; decide
theorem xfLoadf (degree : BitVec 4) : Statement (.xfLoadf degree) := by revert degree; unfold Statement; decide
theorem xfStoref (degree : BitVec 4) : Statement (.xfStoref degree) := by revert degree; unfold Statement; decide
theorem xfRestore (degree : BitVec 4) : Statement (.xfRestore degree) := by revert degree; unfold Statement; decide

end Sys2Proof.Laws.ReservedZero
end

