-- ==== Sys2Proof/Laws/State.lean ====
section
/-! SUPPORT. One lemma per field per update of the state, so that no proof unfolds a record update. -/

namespace Sys2Proof.Machine

/-! ## `State.complete` -/

@[simp] theorem State.complete_cfg (s : State) : (s.complete).cfg = s.cfg := rfl
@[simp] theorem State.complete_busy (s : State) : (s.complete).busy = false := rfl
@[simp] theorem State.complete_done (s : State) : (s.complete).done = true := rfl
@[simp] theorem State.complete_err (s : State) : (s.complete).err = s.err := rfl
@[simp] theorem State.complete_ovr (s : State) : (s.complete).ovr = s.ovr := rfl
@[simp] theorem State.complete_errcode (s : State) : (s.complete).errcode = s.errcode := rfl
@[simp] theorem State.complete_errinfo (s : State) : (s.complete).errinfo = s.errinfo := rfl
@[simp] theorem State.complete_irqen (s : State) : (s.complete).irqen = s.irqen := rfl
@[simp] theorem State.complete_cmd (s : State) : (s.complete).cmd = s.cmd := rfl
@[simp] theorem State.complete_result (s : State) : (s.complete).result = s.result := rfl
@[simp] theorem State.complete_result1 (s : State) : (s.complete).result1 = s.result1 := rfl
@[simp] theorem State.complete_args (s : State) : (s.complete).args = s.args := rfl
@[simp] theorem State.complete_src (s : State) : (s.complete).src = s.src := rfl
@[simp] theorem State.complete_dst (s : State) : (s.complete).dst = s.dst := rfl
@[simp] theorem State.complete_lsb (s : State) : (s.complete).lsb = s.lsb := rfl
@[simp] theorem State.complete_rc (s : State) : (s.complete).rc = s.rc := rfl
@[simp] theorem State.complete_qs (s : State) : (s.complete).qs = s.qs := rfl
@[simp] theorem State.complete_huf (s : State) : (s.complete).huf = s.huf := rfl
@[simp] theorem State.complete_gol (s : State) : (s.complete).gol = s.gol := rfl
@[simp] theorem State.complete_lz (s : State) : (s.complete).lz = s.lz := rfl
@[simp] theorem State.complete_cam (s : State) : (s.complete).cam = s.cam := rfl
@[simp] theorem State.complete_neko (s : State) : (s.complete).neko = s.neko := rfl
@[simp] theorem State.complete_xf (s : State) : (s.complete).xf = s.xf := rfl
@[simp] theorem State.complete_buf (s : State) : (s.complete).buf = s.buf := rfl
@[simp] theorem State.complete_tainted (s : State) : (s.complete).tainted = false := rfl
@[simp] theorem State.complete_draws (s : State) : (s.complete).draws = (if s.tainted then s.draws + drawsPerEvent else s.draws) := rfl
@[simp] theorem State.complete_host (s : State) : (s.complete).host = s.host := rfl
@[simp] theorem State.complete_turns (s : State) : (s.complete).turns = s.turns := rfl
@[simp] theorem State.complete_seen (s : State) : (s.complete).seen = s.seen := rfl

/-! ## `State.abort` -/

@[simp] theorem State.abort_cfg (s : State) (id : CmdId) (r : Raise) : (s.abort id r).cfg = s.cfg := rfl
@[simp] theorem State.abort_busy (s : State) (id : CmdId) (r : Raise) : (s.abort id r).busy = false := rfl
@[simp] theorem State.abort_done (s : State) (id : CmdId) (r : Raise) : (s.abort id r).done = s.done := rfl
@[simp] theorem State.abort_err (s : State) (id : CmdId) (r : Raise) : (s.abort id r).err = true := rfl
@[simp] theorem State.abort_ovr (s : State) (id : CmdId) (r : Raise) : (s.abort id r).ovr = s.ovr := rfl
@[simp] theorem State.abort_errcode (s : State) (id : CmdId) (r : Raise) : (s.abort id r).errcode = errWord id r.err := rfl
@[simp] theorem State.abort_errinfo (s : State) (id : CmdId) (r : Raise) : (s.abort id r).errinfo = r.info := rfl
@[simp] theorem State.abort_irqen (s : State) (id : CmdId) (r : Raise) : (s.abort id r).irqen = s.irqen := rfl
@[simp] theorem State.abort_cmd (s : State) (id : CmdId) (r : Raise) : (s.abort id r).cmd = s.cmd := rfl
@[simp] theorem State.abort_result (s : State) (id : CmdId) (r : Raise) : (s.abort id r).result = 0 := rfl
@[simp] theorem State.abort_result1 (s : State) (id : CmdId) (r : Raise) : (s.abort id r).result1 = 0 := rfl
@[simp] theorem State.abort_args (s : State) (id : CmdId) (r : Raise) : (s.abort id r).args = s.args := rfl
@[simp] theorem State.abort_src (s : State) (id : CmdId) (r : Raise) : (s.abort id r).src = s.src := rfl
@[simp] theorem State.abort_dst (s : State) (id : CmdId) (r : Raise) : (s.abort id r).dst = s.dst := rfl
@[simp] theorem State.abort_lsb (s : State) (id : CmdId) (r : Raise) : (s.abort id r).lsb = s.lsb := rfl
@[simp] theorem State.abort_rc (s : State) (id : CmdId) (r : Raise) : (s.abort id r).rc = s.rc := rfl
@[simp] theorem State.abort_qs (s : State) (id : CmdId) (r : Raise) : (s.abort id r).qs = s.qs := rfl
@[simp] theorem State.abort_huf (s : State) (id : CmdId) (r : Raise) : (s.abort id r).huf = s.huf := rfl
@[simp] theorem State.abort_gol (s : State) (id : CmdId) (r : Raise) : (s.abort id r).gol = s.gol := rfl
@[simp] theorem State.abort_lz (s : State) (id : CmdId) (r : Raise) : (s.abort id r).lz = s.lz := rfl
@[simp] theorem State.abort_cam (s : State) (id : CmdId) (r : Raise) : (s.abort id r).cam = s.cam := rfl
@[simp] theorem State.abort_neko (s : State) (id : CmdId) (r : Raise) : (s.abort id r).neko = s.neko := rfl
@[simp] theorem State.abort_xf (s : State) (id : CmdId) (r : Raise) : (s.abort id r).xf = s.xf := rfl
@[simp] theorem State.abort_buf (s : State) (id : CmdId) (r : Raise) : (s.abort id r).buf = s.buf := rfl
@[simp] theorem State.abort_tainted (s : State) (id : CmdId) (r : Raise) : (s.abort id r).tainted = false := rfl
@[simp] theorem State.abort_draws (s : State) (id : CmdId) (r : Raise) : (s.abort id r).draws = (if s.tainted then s.draws + drawsPerEvent else s.draws) := rfl
@[simp] theorem State.abort_host (s : State) (id : CmdId) (r : Raise) : (s.abort id r).host = s.host := rfl
@[simp] theorem State.abort_turns (s : State) (id : CmdId) (r : Raise) : (s.abort id r).turns = s.turns := rfl
@[simp] theorem State.abort_seen (s : State) (id : CmdId) (r : Raise) : (s.abort id r).seen = s.seen := rfl

/-! ## `State.setResult` -/

@[simp] theorem State.setResult_cfg (s : State) (v : Word) : (s.setResult v).cfg = s.cfg := rfl
@[simp] theorem State.setResult_busy (s : State) (v : Word) : (s.setResult v).busy = s.busy := rfl
@[simp] theorem State.setResult_done (s : State) (v : Word) : (s.setResult v).done = s.done := rfl
@[simp] theorem State.setResult_err (s : State) (v : Word) : (s.setResult v).err = s.err := rfl
@[simp] theorem State.setResult_ovr (s : State) (v : Word) : (s.setResult v).ovr = s.ovr := rfl
@[simp] theorem State.setResult_errcode (s : State) (v : Word) : (s.setResult v).errcode = s.errcode := rfl
@[simp] theorem State.setResult_errinfo (s : State) (v : Word) : (s.setResult v).errinfo = s.errinfo := rfl
@[simp] theorem State.setResult_irqen (s : State) (v : Word) : (s.setResult v).irqen = s.irqen := rfl
@[simp] theorem State.setResult_cmd (s : State) (v : Word) : (s.setResult v).cmd = s.cmd := rfl
@[simp] theorem State.setResult_result (s : State) (v : Word) : (s.setResult v).result = (if s.tainted then Config.freeBits 32 s.draws 0 else v) := rfl
@[simp] theorem State.setResult_result1 (s : State) (v : Word) : (s.setResult v).result1 = s.result1 := rfl
@[simp] theorem State.setResult_args (s : State) (v : Word) : (s.setResult v).args = s.args := rfl
@[simp] theorem State.setResult_src (s : State) (v : Word) : (s.setResult v).src = s.src := rfl
@[simp] theorem State.setResult_dst (s : State) (v : Word) : (s.setResult v).dst = s.dst := rfl
@[simp] theorem State.setResult_lsb (s : State) (v : Word) : (s.setResult v).lsb = s.lsb := rfl
@[simp] theorem State.setResult_rc (s : State) (v : Word) : (s.setResult v).rc = s.rc := rfl
@[simp] theorem State.setResult_qs (s : State) (v : Word) : (s.setResult v).qs = s.qs := rfl
@[simp] theorem State.setResult_huf (s : State) (v : Word) : (s.setResult v).huf = s.huf := rfl
@[simp] theorem State.setResult_gol (s : State) (v : Word) : (s.setResult v).gol = s.gol := rfl
@[simp] theorem State.setResult_lz (s : State) (v : Word) : (s.setResult v).lz = s.lz := rfl
@[simp] theorem State.setResult_cam (s : State) (v : Word) : (s.setResult v).cam = s.cam := rfl
@[simp] theorem State.setResult_neko (s : State) (v : Word) : (s.setResult v).neko = s.neko := rfl
@[simp] theorem State.setResult_xf (s : State) (v : Word) : (s.setResult v).xf = s.xf := rfl
@[simp] theorem State.setResult_buf (s : State) (v : Word) : (s.setResult v).buf = s.buf := rfl
@[simp] theorem State.setResult_tainted (s : State) (v : Word) : (s.setResult v).tainted = s.tainted := rfl
@[simp] theorem State.setResult_draws (s : State) (v : Word) : (s.setResult v).draws = s.draws := rfl
@[simp] theorem State.setResult_host (s : State) (v : Word) : (s.setResult v).host = s.host := rfl
@[simp] theorem State.setResult_turns (s : State) (v : Word) : (s.setResult v).turns = s.turns := rfl
@[simp] theorem State.setResult_seen (s : State) (v : Word) : (s.setResult v).seen = s.seen := rfl

/-! ## `State.setResult1` -/

@[simp] theorem State.setResult1_cfg (s : State) (v : Word) : (s.setResult1 v).cfg = s.cfg := rfl
@[simp] theorem State.setResult1_busy (s : State) (v : Word) : (s.setResult1 v).busy = s.busy := rfl
@[simp] theorem State.setResult1_done (s : State) (v : Word) : (s.setResult1 v).done = s.done := rfl
@[simp] theorem State.setResult1_err (s : State) (v : Word) : (s.setResult1 v).err = s.err := rfl
@[simp] theorem State.setResult1_ovr (s : State) (v : Word) : (s.setResult1 v).ovr = s.ovr := rfl
@[simp] theorem State.setResult1_errcode (s : State) (v : Word) : (s.setResult1 v).errcode = s.errcode := rfl
@[simp] theorem State.setResult1_errinfo (s : State) (v : Word) : (s.setResult1 v).errinfo = s.errinfo := rfl
@[simp] theorem State.setResult1_irqen (s : State) (v : Word) : (s.setResult1 v).irqen = s.irqen := rfl
@[simp] theorem State.setResult1_cmd (s : State) (v : Word) : (s.setResult1 v).cmd = s.cmd := rfl
@[simp] theorem State.setResult1_result (s : State) (v : Word) : (s.setResult1 v).result = s.result := rfl
@[simp] theorem State.setResult1_result1 (s : State) (v : Word) : (s.setResult1 v).result1 = (if s.tainted then Config.freeBits 32 s.draws 1 else v) := rfl
@[simp] theorem State.setResult1_args (s : State) (v : Word) : (s.setResult1 v).args = s.args := rfl
@[simp] theorem State.setResult1_src (s : State) (v : Word) : (s.setResult1 v).src = s.src := rfl
@[simp] theorem State.setResult1_dst (s : State) (v : Word) : (s.setResult1 v).dst = s.dst := rfl
@[simp] theorem State.setResult1_lsb (s : State) (v : Word) : (s.setResult1 v).lsb = s.lsb := rfl
@[simp] theorem State.setResult1_rc (s : State) (v : Word) : (s.setResult1 v).rc = s.rc := rfl
@[simp] theorem State.setResult1_qs (s : State) (v : Word) : (s.setResult1 v).qs = s.qs := rfl
@[simp] theorem State.setResult1_huf (s : State) (v : Word) : (s.setResult1 v).huf = s.huf := rfl
@[simp] theorem State.setResult1_gol (s : State) (v : Word) : (s.setResult1 v).gol = s.gol := rfl
@[simp] theorem State.setResult1_lz (s : State) (v : Word) : (s.setResult1 v).lz = s.lz := rfl
@[simp] theorem State.setResult1_cam (s : State) (v : Word) : (s.setResult1 v).cam = s.cam := rfl
@[simp] theorem State.setResult1_neko (s : State) (v : Word) : (s.setResult1 v).neko = s.neko := rfl
@[simp] theorem State.setResult1_xf (s : State) (v : Word) : (s.setResult1 v).xf = s.xf := rfl
@[simp] theorem State.setResult1_buf (s : State) (v : Word) : (s.setResult1 v).buf = s.buf := rfl
@[simp] theorem State.setResult1_tainted (s : State) (v : Word) : (s.setResult1 v).tainted = s.tainted := rfl
@[simp] theorem State.setResult1_draws (s : State) (v : Word) : (s.setResult1 v).draws = s.draws := rfl
@[simp] theorem State.setResult1_host (s : State) (v : Word) : (s.setResult1 v).host = s.host := rfl
@[simp] theorem State.setResult1_turns (s : State) (v : Word) : (s.setResult1 v).turns = s.turns := rfl
@[simp] theorem State.setResult1_seen (s : State) (v : Word) : (s.setResult1 v).seen = s.seen := rfl

/-! ## `State.withIo` -/

@[simp] theorem State.withIo_cfg (s : State) (io : Io) : (s.withIo io).cfg = s.cfg := rfl
@[simp] theorem State.withIo_busy (s : State) (io : Io) : (s.withIo io).busy = s.busy := rfl
@[simp] theorem State.withIo_done (s : State) (io : Io) : (s.withIo io).done = s.done := rfl
@[simp] theorem State.withIo_err (s : State) (io : Io) : (s.withIo io).err = s.err := rfl
@[simp] theorem State.withIo_ovr (s : State) (io : Io) : (s.withIo io).ovr = s.ovr := rfl
@[simp] theorem State.withIo_errcode (s : State) (io : Io) : (s.withIo io).errcode = s.errcode := rfl
@[simp] theorem State.withIo_errinfo (s : State) (io : Io) : (s.withIo io).errinfo = s.errinfo := rfl
@[simp] theorem State.withIo_irqen (s : State) (io : Io) : (s.withIo io).irqen = s.irqen := rfl
@[simp] theorem State.withIo_cmd (s : State) (io : Io) : (s.withIo io).cmd = s.cmd := rfl
@[simp] theorem State.withIo_result (s : State) (io : Io) : (s.withIo io).result = s.result := rfl
@[simp] theorem State.withIo_result1 (s : State) (io : Io) : (s.withIo io).result1 = s.result1 := rfl
@[simp] theorem State.withIo_args (s : State) (io : Io) : (s.withIo io).args = s.args := rfl
@[simp] theorem State.withIo_src (s : State) (io : Io) : (s.withIo io).src = ⟨s.src.base, s.src.len, wordOf io.pos⟩ := rfl
@[simp] theorem State.withIo_dst (s : State) (io : Io) : (s.withIo io).dst = ⟨s.dst.base, s.dst.len, wordOf io.out⟩ := rfl
@[simp] theorem State.withIo_lsb (s : State) (io : Io) : (s.withIo io).lsb = s.lsb := rfl
@[simp] theorem State.withIo_rc (s : State) (io : Io) : (s.withIo io).rc = s.rc := rfl
@[simp] theorem State.withIo_qs (s : State) (io : Io) : (s.withIo io).qs = s.qs := rfl
@[simp] theorem State.withIo_huf (s : State) (io : Io) : (s.withIo io).huf = s.huf := rfl
@[simp] theorem State.withIo_gol (s : State) (io : Io) : (s.withIo io).gol = s.gol := rfl
@[simp] theorem State.withIo_lz (s : State) (io : Io) : (s.withIo io).lz = s.lz := rfl
@[simp] theorem State.withIo_cam (s : State) (io : Io) : (s.withIo io).cam = s.cam := rfl
@[simp] theorem State.withIo_neko (s : State) (io : Io) : (s.withIo io).neko = s.neko := rfl
@[simp] theorem State.withIo_xf (s : State) (io : Io) : (s.withIo io).xf = s.xf := rfl
@[simp] theorem State.withIo_buf (s : State) (io : Io) : (s.withIo io).buf = io.buf := rfl
@[simp] theorem State.withIo_tainted (s : State) (io : Io) : (s.withIo io).tainted = s.tainted := rfl
@[simp] theorem State.withIo_draws (s : State) (io : Io) : (s.withIo io).draws = s.draws := rfl
@[simp] theorem State.withIo_host (s : State) (io : Io) : (s.withIo io).host = s.host := rfl
@[simp] theorem State.withIo_turns (s : State) (io : Io) : (s.withIo io).turns = s.turns := rfl
@[simp] theorem State.withIo_seen (s : State) (io : Io) : (s.withIo io).seen = s.seen := rfl

/-! ## `State.withPos` -/

@[simp] theorem State.withPos_cfg (s : State) (io : Io) : (s.withPos io).cfg = s.cfg := rfl
@[simp] theorem State.withPos_busy (s : State) (io : Io) : (s.withPos io).busy = s.busy := rfl
@[simp] theorem State.withPos_done (s : State) (io : Io) : (s.withPos io).done = s.done := rfl
@[simp] theorem State.withPos_err (s : State) (io : Io) : (s.withPos io).err = s.err := rfl
@[simp] theorem State.withPos_ovr (s : State) (io : Io) : (s.withPos io).ovr = s.ovr := rfl
@[simp] theorem State.withPos_errcode (s : State) (io : Io) : (s.withPos io).errcode = s.errcode := rfl
@[simp] theorem State.withPos_errinfo (s : State) (io : Io) : (s.withPos io).errinfo = s.errinfo := rfl
@[simp] theorem State.withPos_irqen (s : State) (io : Io) : (s.withPos io).irqen = s.irqen := rfl
@[simp] theorem State.withPos_cmd (s : State) (io : Io) : (s.withPos io).cmd = s.cmd := rfl
@[simp] theorem State.withPos_result (s : State) (io : Io) : (s.withPos io).result = s.result := rfl
@[simp] theorem State.withPos_result1 (s : State) (io : Io) : (s.withPos io).result1 = s.result1 := rfl
@[simp] theorem State.withPos_args (s : State) (io : Io) : (s.withPos io).args = s.args := rfl
@[simp] theorem State.withPos_src (s : State) (io : Io) : (s.withPos io).src = ⟨s.src.base, s.src.len, wordOf io.pos⟩ := rfl
@[simp] theorem State.withPos_dst (s : State) (io : Io) : (s.withPos io).dst = s.dst := rfl
@[simp] theorem State.withPos_lsb (s : State) (io : Io) : (s.withPos io).lsb = s.lsb := rfl
@[simp] theorem State.withPos_rc (s : State) (io : Io) : (s.withPos io).rc = s.rc := rfl
@[simp] theorem State.withPos_qs (s : State) (io : Io) : (s.withPos io).qs = s.qs := rfl
@[simp] theorem State.withPos_huf (s : State) (io : Io) : (s.withPos io).huf = s.huf := rfl
@[simp] theorem State.withPos_gol (s : State) (io : Io) : (s.withPos io).gol = s.gol := rfl
@[simp] theorem State.withPos_lz (s : State) (io : Io) : (s.withPos io).lz = s.lz := rfl
@[simp] theorem State.withPos_cam (s : State) (io : Io) : (s.withPos io).cam = s.cam := rfl
@[simp] theorem State.withPos_neko (s : State) (io : Io) : (s.withPos io).neko = s.neko := rfl
@[simp] theorem State.withPos_xf (s : State) (io : Io) : (s.withPos io).xf = s.xf := rfl
@[simp] theorem State.withPos_buf (s : State) (io : Io) : (s.withPos io).buf = s.buf := rfl
@[simp] theorem State.withPos_tainted (s : State) (io : Io) : (s.withPos io).tainted = s.tainted := rfl
@[simp] theorem State.withPos_draws (s : State) (io : Io) : (s.withPos io).draws = s.draws := rfl
@[simp] theorem State.withPos_host (s : State) (io : Io) : (s.withPos io).host = s.host := rfl
@[simp] theorem State.withPos_turns (s : State) (io : Io) : (s.withPos io).turns = s.turns := rfl
@[simp] theorem State.withPos_seen (s : State) (io : Io) : (s.withPos io).seen = s.seen := rfl

/-! ## `State.endDraws` -/

@[simp] theorem State.endDraws_cfg (s : State) : (s.endDraws).cfg = s.cfg := rfl
@[simp] theorem State.endDraws_busy (s : State) : (s.endDraws).busy = s.busy := rfl
@[simp] theorem State.endDraws_done (s : State) : (s.endDraws).done = s.done := rfl
@[simp] theorem State.endDraws_err (s : State) : (s.endDraws).err = s.err := rfl
@[simp] theorem State.endDraws_ovr (s : State) : (s.endDraws).ovr = s.ovr := rfl
@[simp] theorem State.endDraws_errcode (s : State) : (s.endDraws).errcode = s.errcode := rfl
@[simp] theorem State.endDraws_errinfo (s : State) : (s.endDraws).errinfo = s.errinfo := rfl
@[simp] theorem State.endDraws_irqen (s : State) : (s.endDraws).irqen = s.irqen := rfl
@[simp] theorem State.endDraws_cmd (s : State) : (s.endDraws).cmd = s.cmd := rfl
@[simp] theorem State.endDraws_result (s : State) : (s.endDraws).result = s.result := rfl
@[simp] theorem State.endDraws_result1 (s : State) : (s.endDraws).result1 = s.result1 := rfl
@[simp] theorem State.endDraws_args (s : State) : (s.endDraws).args = s.args := rfl
@[simp] theorem State.endDraws_src (s : State) : (s.endDraws).src = s.src := rfl
@[simp] theorem State.endDraws_dst (s : State) : (s.endDraws).dst = s.dst := rfl
@[simp] theorem State.endDraws_lsb (s : State) : (s.endDraws).lsb = s.lsb := rfl
@[simp] theorem State.endDraws_rc (s : State) : (s.endDraws).rc = s.rc := rfl
@[simp] theorem State.endDraws_qs (s : State) : (s.endDraws).qs = s.qs := rfl
@[simp] theorem State.endDraws_huf (s : State) : (s.endDraws).huf = s.huf := rfl
@[simp] theorem State.endDraws_gol (s : State) : (s.endDraws).gol = s.gol := rfl
@[simp] theorem State.endDraws_lz (s : State) : (s.endDraws).lz = s.lz := rfl
@[simp] theorem State.endDraws_cam (s : State) : (s.endDraws).cam = s.cam := rfl
@[simp] theorem State.endDraws_neko (s : State) : (s.endDraws).neko = s.neko := rfl
@[simp] theorem State.endDraws_xf (s : State) : (s.endDraws).xf = s.xf := rfl
@[simp] theorem State.endDraws_buf (s : State) : (s.endDraws).buf = s.buf := rfl
@[simp] theorem State.endDraws_tainted (s : State) : (s.endDraws).tainted = s.tainted := rfl
@[simp] theorem State.endDraws_draws (s : State) : (s.endDraws).draws = s.draws + drawsPerEvent := rfl
@[simp] theorem State.endDraws_host (s : State) : (s.endDraws).host = s.host := rfl
@[simp] theorem State.endDraws_turns (s : State) : (s.endDraws).turns = s.turns := rfl
@[simp] theorem State.endDraws_seen (s : State) : (s.endDraws).seen = s.seen := rfl

/-! ## `State.ackErr` -/

@[simp] theorem State.ackErr_cfg (s : State) : (s.ackErr).cfg = s.cfg := rfl
@[simp] theorem State.ackErr_busy (s : State) : (s.ackErr).busy = s.busy := rfl
@[simp] theorem State.ackErr_done (s : State) : (s.ackErr).done = s.done := rfl
@[simp] theorem State.ackErr_err (s : State) : (s.ackErr).err = false := rfl
@[simp] theorem State.ackErr_ovr (s : State) : (s.ackErr).ovr = s.ovr := rfl
@[simp] theorem State.ackErr_errcode (s : State) : (s.ackErr).errcode = 0 := rfl
@[simp] theorem State.ackErr_errinfo (s : State) : (s.ackErr).errinfo = 0 := rfl
@[simp] theorem State.ackErr_irqen (s : State) : (s.ackErr).irqen = s.irqen := rfl
@[simp] theorem State.ackErr_cmd (s : State) : (s.ackErr).cmd = s.cmd := rfl
@[simp] theorem State.ackErr_result (s : State) : (s.ackErr).result = s.result := rfl
@[simp] theorem State.ackErr_result1 (s : State) : (s.ackErr).result1 = s.result1 := rfl
@[simp] theorem State.ackErr_args (s : State) : (s.ackErr).args = s.args := rfl
@[simp] theorem State.ackErr_src (s : State) : (s.ackErr).src = s.src := rfl
@[simp] theorem State.ackErr_dst (s : State) : (s.ackErr).dst = s.dst := rfl
@[simp] theorem State.ackErr_lsb (s : State) : (s.ackErr).lsb = s.lsb := rfl
@[simp] theorem State.ackErr_rc (s : State) : (s.ackErr).rc = s.rc := rfl
@[simp] theorem State.ackErr_qs (s : State) : (s.ackErr).qs = s.qs := rfl
@[simp] theorem State.ackErr_huf (s : State) : (s.ackErr).huf = s.huf := rfl
@[simp] theorem State.ackErr_gol (s : State) : (s.ackErr).gol = s.gol := rfl
@[simp] theorem State.ackErr_lz (s : State) : (s.ackErr).lz = s.lz := rfl
@[simp] theorem State.ackErr_cam (s : State) : (s.ackErr).cam = s.cam := rfl
@[simp] theorem State.ackErr_neko (s : State) : (s.ackErr).neko = s.neko := rfl
@[simp] theorem State.ackErr_xf (s : State) : (s.ackErr).xf = s.xf := rfl
@[simp] theorem State.ackErr_buf (s : State) : (s.ackErr).buf = s.buf := rfl
@[simp] theorem State.ackErr_tainted (s : State) : (s.ackErr).tainted = s.tainted := rfl
@[simp] theorem State.ackErr_draws (s : State) : (s.ackErr).draws = s.draws := rfl
@[simp] theorem State.ackErr_host (s : State) : (s.ackErr).host = s.host := rfl
@[simp] theorem State.ackErr_turns (s : State) : (s.ackErr).turns = s.turns := rfl
@[simp] theorem State.ackErr_seen (s : State) : (s.ackErr).seen = s.seen := rfl

/-! ## `State.markOverlap` -/

@[simp] theorem State.markOverlap_cfg (s : State) : (s.markOverlap).cfg = s.cfg := rfl
@[simp] theorem State.markOverlap_busy (s : State) : (s.markOverlap).busy = s.busy := rfl
@[simp] theorem State.markOverlap_done (s : State) : (s.markOverlap).done = s.done := rfl
@[simp] theorem State.markOverlap_err (s : State) : (s.markOverlap).err = s.err := rfl
@[simp] theorem State.markOverlap_ovr (s : State) : (s.markOverlap).ovr = s.ovr := rfl
@[simp] theorem State.markOverlap_errcode (s : State) : (s.markOverlap).errcode = s.errcode := rfl
@[simp] theorem State.markOverlap_errinfo (s : State) : (s.markOverlap).errinfo = s.errinfo := rfl
@[simp] theorem State.markOverlap_irqen (s : State) : (s.markOverlap).irqen = s.irqen := rfl
@[simp] theorem State.markOverlap_cmd (s : State) : (s.markOverlap).cmd = s.cmd := rfl
@[simp] theorem State.markOverlap_result (s : State) : (s.markOverlap).result = s.result := rfl
@[simp] theorem State.markOverlap_result1 (s : State) : (s.markOverlap).result1 = s.result1 := rfl
@[simp] theorem State.markOverlap_args (s : State) : (s.markOverlap).args = s.args := rfl
@[simp] theorem State.markOverlap_src (s : State) : (s.markOverlap).src = s.src := rfl
@[simp] theorem State.markOverlap_dst (s : State) : (s.markOverlap).dst = s.dst := rfl
@[simp] theorem State.markOverlap_lsb (s : State) : (s.markOverlap).lsb = s.lsb := rfl
@[simp] theorem State.markOverlap_rc (s : State) : (s.markOverlap).rc = s.rc := rfl
@[simp] theorem State.markOverlap_qs (s : State) : (s.markOverlap).qs = s.qs := rfl
@[simp] theorem State.markOverlap_huf (s : State) : (s.markOverlap).huf = s.huf := rfl
@[simp] theorem State.markOverlap_gol (s : State) : (s.markOverlap).gol = s.gol := rfl
@[simp] theorem State.markOverlap_lz (s : State) : (s.markOverlap).lz = s.lz := rfl
@[simp] theorem State.markOverlap_cam (s : State) : (s.markOverlap).cam = s.cam := rfl
@[simp] theorem State.markOverlap_neko (s : State) : (s.markOverlap).neko = s.neko := rfl
@[simp] theorem State.markOverlap_xf (s : State) : (s.markOverlap).xf = s.xf := rfl
@[simp] theorem State.markOverlap_buf (s : State) : (s.markOverlap).buf = s.buf := rfl
@[simp] theorem State.markOverlap_tainted (s : State) : (s.markOverlap).tainted = (s.tainted || s.spansOverlap) := rfl
@[simp] theorem State.markOverlap_draws (s : State) : (s.markOverlap).draws = s.draws := rfl
@[simp] theorem State.markOverlap_host (s : State) : (s.markOverlap).host = s.host := rfl
@[simp] theorem State.markOverlap_turns (s : State) : (s.markOverlap).turns = s.turns := rfl
@[simp] theorem State.markOverlap_seen (s : State) : (s.markOverlap).seen = s.seen := rfl

/-! ## `State.loseSrcPos` -/

@[simp] theorem State.loseSrcPos_cfg (s : State) : (s.loseSrcPos).cfg = s.cfg := rfl
@[simp] theorem State.loseSrcPos_busy (s : State) : (s.loseSrcPos).busy = s.busy := rfl
@[simp] theorem State.loseSrcPos_done (s : State) : (s.loseSrcPos).done = s.done := rfl
@[simp] theorem State.loseSrcPos_err (s : State) : (s.loseSrcPos).err = s.err := rfl
@[simp] theorem State.loseSrcPos_ovr (s : State) : (s.loseSrcPos).ovr = s.ovr := rfl
@[simp] theorem State.loseSrcPos_errcode (s : State) : (s.loseSrcPos).errcode = s.errcode := rfl
@[simp] theorem State.loseSrcPos_errinfo (s : State) : (s.loseSrcPos).errinfo = s.errinfo := rfl
@[simp] theorem State.loseSrcPos_irqen (s : State) : (s.loseSrcPos).irqen = s.irqen := rfl
@[simp] theorem State.loseSrcPos_cmd (s : State) : (s.loseSrcPos).cmd = s.cmd := rfl
@[simp] theorem State.loseSrcPos_result (s : State) : (s.loseSrcPos).result = s.result := rfl
@[simp] theorem State.loseSrcPos_result1 (s : State) : (s.loseSrcPos).result1 = s.result1 := rfl
@[simp] theorem State.loseSrcPos_args (s : State) : (s.loseSrcPos).args = s.args := rfl
@[simp] theorem State.loseSrcPos_dst (s : State) : (s.loseSrcPos).dst = s.dst := rfl
@[simp] theorem State.loseSrcPos_lsb (s : State) : (s.loseSrcPos).lsb = s.lsb := rfl
@[simp] theorem State.loseSrcPos_rc (s : State) : (s.loseSrcPos).rc = s.rc := rfl
@[simp] theorem State.loseSrcPos_qs (s : State) : (s.loseSrcPos).qs = s.qs := rfl
@[simp] theorem State.loseSrcPos_huf (s : State) : (s.loseSrcPos).huf = s.huf := rfl
@[simp] theorem State.loseSrcPos_gol (s : State) : (s.loseSrcPos).gol = s.gol := rfl
@[simp] theorem State.loseSrcPos_lz (s : State) : (s.loseSrcPos).lz = s.lz := rfl
@[simp] theorem State.loseSrcPos_cam (s : State) : (s.loseSrcPos).cam = s.cam := rfl
@[simp] theorem State.loseSrcPos_neko (s : State) : (s.loseSrcPos).neko = s.neko := rfl
@[simp] theorem State.loseSrcPos_xf (s : State) : (s.loseSrcPos).xf = s.xf := rfl
@[simp] theorem State.loseSrcPos_buf (s : State) : (s.loseSrcPos).buf = s.buf := rfl
@[simp] theorem State.loseSrcPos_tainted (s : State) : (s.loseSrcPos).tainted = s.tainted := rfl
@[simp] theorem State.loseSrcPos_draws (s : State) : (s.loseSrcPos).draws = s.draws := rfl
@[simp] theorem State.loseSrcPos_host (s : State) : (s.loseSrcPos).host = s.host := rfl
@[simp] theorem State.loseSrcPos_turns (s : State) : (s.loseSrcPos).turns = s.turns := rfl
@[simp] theorem State.loseSrcPos_seen (s : State) : (s.loseSrcPos).seen = s.seen := rfl

/-! ## `State.loseDst` -/

@[simp] theorem State.loseDst_cfg (s : State) : (s.loseDst).cfg = s.cfg := rfl
@[simp] theorem State.loseDst_busy (s : State) : (s.loseDst).busy = s.busy := rfl
@[simp] theorem State.loseDst_done (s : State) : (s.loseDst).done = s.done := rfl
@[simp] theorem State.loseDst_err (s : State) : (s.loseDst).err = s.err := rfl
@[simp] theorem State.loseDst_ovr (s : State) : (s.loseDst).ovr = s.ovr := rfl
@[simp] theorem State.loseDst_errcode (s : State) : (s.loseDst).errcode = s.errcode := rfl
@[simp] theorem State.loseDst_errinfo (s : State) : (s.loseDst).errinfo = s.errinfo := rfl
@[simp] theorem State.loseDst_irqen (s : State) : (s.loseDst).irqen = s.irqen := rfl
@[simp] theorem State.loseDst_cmd (s : State) : (s.loseDst).cmd = s.cmd := rfl
@[simp] theorem State.loseDst_result (s : State) : (s.loseDst).result = s.result := rfl
@[simp] theorem State.loseDst_result1 (s : State) : (s.loseDst).result1 = s.result1 := rfl
@[simp] theorem State.loseDst_args (s : State) : (s.loseDst).args = s.args := rfl
@[simp] theorem State.loseDst_src (s : State) : (s.loseDst).src = s.src := rfl
@[simp] theorem State.loseDst_lsb (s : State) : (s.loseDst).lsb = s.lsb := rfl
@[simp] theorem State.loseDst_rc (s : State) : (s.loseDst).rc = s.rc := rfl
@[simp] theorem State.loseDst_qs (s : State) : (s.loseDst).qs = s.qs := rfl
@[simp] theorem State.loseDst_huf (s : State) : (s.loseDst).huf = s.huf := rfl
@[simp] theorem State.loseDst_gol (s : State) : (s.loseDst).gol = s.gol := rfl
@[simp] theorem State.loseDst_lz (s : State) : (s.loseDst).lz = s.lz := rfl
@[simp] theorem State.loseDst_cam (s : State) : (s.loseDst).cam = s.cam := rfl
@[simp] theorem State.loseDst_neko (s : State) : (s.loseDst).neko = s.neko := rfl
@[simp] theorem State.loseDst_xf (s : State) : (s.loseDst).xf = s.xf := rfl
@[simp] theorem State.loseDst_tainted (s : State) : (s.loseDst).tainted = s.tainted := rfl
@[simp] theorem State.loseDst_draws (s : State) : (s.loseDst).draws = s.draws := rfl
@[simp] theorem State.loseDst_host (s : State) : (s.loseDst).host = s.host := rfl
@[simp] theorem State.loseDst_turns (s : State) : (s.loseDst).turns = s.turns := rfl
@[simp] theorem State.loseDst_seen (s : State) : (s.loseDst).seen = s.seen := rfl

/-! ## `State.loseBytes` -/

@[simp] theorem State.loseBytes_cfg (s : State) (entries : List Nat) : (s.loseBytes entries).cfg = s.cfg := rfl
@[simp] theorem State.loseBytes_busy (s : State) (entries : List Nat) : (s.loseBytes entries).busy = s.busy := rfl
@[simp] theorem State.loseBytes_done (s : State) (entries : List Nat) : (s.loseBytes entries).done = s.done := rfl
@[simp] theorem State.loseBytes_err (s : State) (entries : List Nat) : (s.loseBytes entries).err = s.err := rfl
@[simp] theorem State.loseBytes_ovr (s : State) (entries : List Nat) : (s.loseBytes entries).ovr = s.ovr := rfl
@[simp] theorem State.loseBytes_errcode (s : State) (entries : List Nat) : (s.loseBytes entries).errcode = s.errcode := rfl
@[simp] theorem State.loseBytes_errinfo (s : State) (entries : List Nat) : (s.loseBytes entries).errinfo = s.errinfo := rfl
@[simp] theorem State.loseBytes_irqen (s : State) (entries : List Nat) : (s.loseBytes entries).irqen = s.irqen := rfl
@[simp] theorem State.loseBytes_cmd (s : State) (entries : List Nat) : (s.loseBytes entries).cmd = s.cmd := rfl
@[simp] theorem State.loseBytes_result (s : State) (entries : List Nat) : (s.loseBytes entries).result = s.result := rfl
@[simp] theorem State.loseBytes_result1 (s : State) (entries : List Nat) : (s.loseBytes entries).result1 = s.result1 := rfl
@[simp] theorem State.loseBytes_args (s : State) (entries : List Nat) : (s.loseBytes entries).args = s.args := rfl
@[simp] theorem State.loseBytes_src (s : State) (entries : List Nat) : (s.loseBytes entries).src = s.src := rfl
@[simp] theorem State.loseBytes_dst (s : State) (entries : List Nat) : (s.loseBytes entries).dst = s.dst := rfl
@[simp] theorem State.loseBytes_lsb (s : State) (entries : List Nat) : (s.loseBytes entries).lsb = s.lsb := rfl
@[simp] theorem State.loseBytes_rc (s : State) (entries : List Nat) : (s.loseBytes entries).rc = s.rc := rfl
@[simp] theorem State.loseBytes_qs (s : State) (entries : List Nat) : (s.loseBytes entries).qs = s.qs := rfl
@[simp] theorem State.loseBytes_huf (s : State) (entries : List Nat) : (s.loseBytes entries).huf = s.huf := rfl
@[simp] theorem State.loseBytes_gol (s : State) (entries : List Nat) : (s.loseBytes entries).gol = s.gol := rfl
@[simp] theorem State.loseBytes_lz (s : State) (entries : List Nat) : (s.loseBytes entries).lz = s.lz := rfl
@[simp] theorem State.loseBytes_cam (s : State) (entries : List Nat) : (s.loseBytes entries).cam = s.cam := rfl
@[simp] theorem State.loseBytes_neko (s : State) (entries : List Nat) : (s.loseBytes entries).neko = s.neko := rfl
@[simp] theorem State.loseBytes_xf (s : State) (entries : List Nat) : (s.loseBytes entries).xf = s.xf := rfl
@[simp] theorem State.loseBytes_tainted (s : State) (entries : List Nat) : (s.loseBytes entries).tainted = s.tainted := rfl
@[simp] theorem State.loseBytes_draws (s : State) (entries : List Nat) : (s.loseBytes entries).draws = s.draws := rfl
@[simp] theorem State.loseBytes_host (s : State) (entries : List Nat) : (s.loseBytes entries).host = s.host := rfl
@[simp] theorem State.loseBytes_turns (s : State) (entries : List Nat) : (s.loseBytes entries).turns = s.turns := rfl
@[simp] theorem State.loseBytes_seen (s : State) (entries : List Nat) : (s.loseBytes entries).seen = s.seen := rfl

/-! ## `State.loseRc` -/

@[simp] theorem State.loseRc_cfg (s : State) : (s.loseRc).cfg = s.cfg := rfl
@[simp] theorem State.loseRc_busy (s : State) : (s.loseRc).busy = s.busy := rfl
@[simp] theorem State.loseRc_done (s : State) : (s.loseRc).done = s.done := rfl
@[simp] theorem State.loseRc_err (s : State) : (s.loseRc).err = s.err := rfl
@[simp] theorem State.loseRc_ovr (s : State) : (s.loseRc).ovr = s.ovr := rfl
@[simp] theorem State.loseRc_errcode (s : State) : (s.loseRc).errcode = s.errcode := rfl
@[simp] theorem State.loseRc_errinfo (s : State) : (s.loseRc).errinfo = s.errinfo := rfl
@[simp] theorem State.loseRc_irqen (s : State) : (s.loseRc).irqen = s.irqen := rfl
@[simp] theorem State.loseRc_cmd (s : State) : (s.loseRc).cmd = s.cmd := rfl
@[simp] theorem State.loseRc_result (s : State) : (s.loseRc).result = s.result := rfl
@[simp] theorem State.loseRc_result1 (s : State) : (s.loseRc).result1 = s.result1 := rfl
@[simp] theorem State.loseRc_args (s : State) : (s.loseRc).args = s.args := rfl
@[simp] theorem State.loseRc_src (s : State) : (s.loseRc).src = s.src := rfl
@[simp] theorem State.loseRc_dst (s : State) : (s.loseRc).dst = s.dst := rfl
@[simp] theorem State.loseRc_lsb (s : State) : (s.loseRc).lsb = s.lsb := rfl
@[simp] theorem State.loseRc_qs (s : State) : (s.loseRc).qs = s.qs := rfl
@[simp] theorem State.loseRc_huf (s : State) : (s.loseRc).huf = s.huf := rfl
@[simp] theorem State.loseRc_gol (s : State) : (s.loseRc).gol = s.gol := rfl
@[simp] theorem State.loseRc_lz (s : State) : (s.loseRc).lz = s.lz := rfl
@[simp] theorem State.loseRc_cam (s : State) : (s.loseRc).cam = s.cam := rfl
@[simp] theorem State.loseRc_neko (s : State) : (s.loseRc).neko = s.neko := rfl
@[simp] theorem State.loseRc_xf (s : State) : (s.loseRc).xf = s.xf := rfl
@[simp] theorem State.loseRc_buf (s : State) : (s.loseRc).buf = s.buf := rfl
@[simp] theorem State.loseRc_tainted (s : State) : (s.loseRc).tainted = s.tainted := rfl
@[simp] theorem State.loseRc_draws (s : State) : (s.loseRc).draws = s.draws := rfl
@[simp] theorem State.loseRc_host (s : State) : (s.loseRc).host = s.host := rfl
@[simp] theorem State.loseRc_turns (s : State) : (s.loseRc).turns = s.turns := rfl
@[simp] theorem State.loseRc_seen (s : State) : (s.loseRc).seen = s.seen := rfl

/-! ## `State.loseQs` -/

@[simp] theorem State.loseQs_cfg (s : State) : (s.loseQs).cfg = s.cfg := rfl
@[simp] theorem State.loseQs_busy (s : State) : (s.loseQs).busy = s.busy := rfl
@[simp] theorem State.loseQs_done (s : State) : (s.loseQs).done = s.done := rfl
@[simp] theorem State.loseQs_err (s : State) : (s.loseQs).err = s.err := rfl
@[simp] theorem State.loseQs_ovr (s : State) : (s.loseQs).ovr = s.ovr := rfl
@[simp] theorem State.loseQs_errcode (s : State) : (s.loseQs).errcode = s.errcode := rfl
@[simp] theorem State.loseQs_errinfo (s : State) : (s.loseQs).errinfo = s.errinfo := rfl
@[simp] theorem State.loseQs_irqen (s : State) : (s.loseQs).irqen = s.irqen := rfl
@[simp] theorem State.loseQs_cmd (s : State) : (s.loseQs).cmd = s.cmd := rfl
@[simp] theorem State.loseQs_result (s : State) : (s.loseQs).result = s.result := rfl
@[simp] theorem State.loseQs_result1 (s : State) : (s.loseQs).result1 = s.result1 := rfl
@[simp] theorem State.loseQs_args (s : State) : (s.loseQs).args = s.args := rfl
@[simp] theorem State.loseQs_src (s : State) : (s.loseQs).src = s.src := rfl
@[simp] theorem State.loseQs_dst (s : State) : (s.loseQs).dst = s.dst := rfl
@[simp] theorem State.loseQs_lsb (s : State) : (s.loseQs).lsb = s.lsb := rfl
@[simp] theorem State.loseQs_rc (s : State) : (s.loseQs).rc = s.rc := rfl
@[simp] theorem State.loseQs_huf (s : State) : (s.loseQs).huf = s.huf := rfl
@[simp] theorem State.loseQs_gol (s : State) : (s.loseQs).gol = s.gol := rfl
@[simp] theorem State.loseQs_lz (s : State) : (s.loseQs).lz = s.lz := rfl
@[simp] theorem State.loseQs_cam (s : State) : (s.loseQs).cam = s.cam := rfl
@[simp] theorem State.loseQs_neko (s : State) : (s.loseQs).neko = s.neko := rfl
@[simp] theorem State.loseQs_xf (s : State) : (s.loseQs).xf = s.xf := rfl
@[simp] theorem State.loseQs_buf (s : State) : (s.loseQs).buf = s.buf := rfl
@[simp] theorem State.loseQs_tainted (s : State) : (s.loseQs).tainted = s.tainted := rfl
@[simp] theorem State.loseQs_draws (s : State) : (s.loseQs).draws = s.draws := rfl
@[simp] theorem State.loseQs_host (s : State) : (s.loseQs).host = s.host := rfl
@[simp] theorem State.loseQs_turns (s : State) : (s.loseQs).turns = s.turns := rfl
@[simp] theorem State.loseQs_seen (s : State) : (s.loseQs).seen = s.seen := rfl

/-! ## `State.loseHuf` -/

@[simp] theorem State.loseHuf_cfg (s : State) : (s.loseHuf).cfg = s.cfg := rfl
@[simp] theorem State.loseHuf_busy (s : State) : (s.loseHuf).busy = s.busy := rfl
@[simp] theorem State.loseHuf_done (s : State) : (s.loseHuf).done = s.done := rfl
@[simp] theorem State.loseHuf_err (s : State) : (s.loseHuf).err = s.err := rfl
@[simp] theorem State.loseHuf_ovr (s : State) : (s.loseHuf).ovr = s.ovr := rfl
@[simp] theorem State.loseHuf_errcode (s : State) : (s.loseHuf).errcode = s.errcode := rfl
@[simp] theorem State.loseHuf_errinfo (s : State) : (s.loseHuf).errinfo = s.errinfo := rfl
@[simp] theorem State.loseHuf_irqen (s : State) : (s.loseHuf).irqen = s.irqen := rfl
@[simp] theorem State.loseHuf_cmd (s : State) : (s.loseHuf).cmd = s.cmd := rfl
@[simp] theorem State.loseHuf_result (s : State) : (s.loseHuf).result = s.result := rfl
@[simp] theorem State.loseHuf_result1 (s : State) : (s.loseHuf).result1 = s.result1 := rfl
@[simp] theorem State.loseHuf_args (s : State) : (s.loseHuf).args = s.args := rfl
@[simp] theorem State.loseHuf_src (s : State) : (s.loseHuf).src = s.src := rfl
@[simp] theorem State.loseHuf_dst (s : State) : (s.loseHuf).dst = s.dst := rfl
@[simp] theorem State.loseHuf_lsb (s : State) : (s.loseHuf).lsb = s.lsb := rfl
@[simp] theorem State.loseHuf_rc (s : State) : (s.loseHuf).rc = s.rc := rfl
@[simp] theorem State.loseHuf_qs (s : State) : (s.loseHuf).qs = s.qs := rfl
@[simp] theorem State.loseHuf_gol (s : State) : (s.loseHuf).gol = s.gol := rfl
@[simp] theorem State.loseHuf_lz (s : State) : (s.loseHuf).lz = s.lz := rfl
@[simp] theorem State.loseHuf_cam (s : State) : (s.loseHuf).cam = s.cam := rfl
@[simp] theorem State.loseHuf_neko (s : State) : (s.loseHuf).neko = s.neko := rfl
@[simp] theorem State.loseHuf_xf (s : State) : (s.loseHuf).xf = s.xf := rfl
@[simp] theorem State.loseHuf_buf (s : State) : (s.loseHuf).buf = s.buf := rfl
@[simp] theorem State.loseHuf_tainted (s : State) : (s.loseHuf).tainted = s.tainted := rfl
@[simp] theorem State.loseHuf_draws (s : State) : (s.loseHuf).draws = s.draws := rfl
@[simp] theorem State.loseHuf_host (s : State) : (s.loseHuf).host = s.host := rfl
@[simp] theorem State.loseHuf_turns (s : State) : (s.loseHuf).turns = s.turns := rfl
@[simp] theorem State.loseHuf_seen (s : State) : (s.loseHuf).seen = s.seen := rfl

/-! ## `State.loseGol` -/

@[simp] theorem State.loseGol_cfg (s : State) : (s.loseGol).cfg = s.cfg := rfl
@[simp] theorem State.loseGol_busy (s : State) : (s.loseGol).busy = s.busy := rfl
@[simp] theorem State.loseGol_done (s : State) : (s.loseGol).done = s.done := rfl
@[simp] theorem State.loseGol_err (s : State) : (s.loseGol).err = s.err := rfl
@[simp] theorem State.loseGol_ovr (s : State) : (s.loseGol).ovr = s.ovr := rfl
@[simp] theorem State.loseGol_errcode (s : State) : (s.loseGol).errcode = s.errcode := rfl
@[simp] theorem State.loseGol_errinfo (s : State) : (s.loseGol).errinfo = s.errinfo := rfl
@[simp] theorem State.loseGol_irqen (s : State) : (s.loseGol).irqen = s.irqen := rfl
@[simp] theorem State.loseGol_cmd (s : State) : (s.loseGol).cmd = s.cmd := rfl
@[simp] theorem State.loseGol_result (s : State) : (s.loseGol).result = s.result := rfl
@[simp] theorem State.loseGol_result1 (s : State) : (s.loseGol).result1 = s.result1 := rfl
@[simp] theorem State.loseGol_args (s : State) : (s.loseGol).args = s.args := rfl
@[simp] theorem State.loseGol_src (s : State) : (s.loseGol).src = s.src := rfl
@[simp] theorem State.loseGol_dst (s : State) : (s.loseGol).dst = s.dst := rfl
@[simp] theorem State.loseGol_lsb (s : State) : (s.loseGol).lsb = s.lsb := rfl
@[simp] theorem State.loseGol_rc (s : State) : (s.loseGol).rc = s.rc := rfl
@[simp] theorem State.loseGol_qs (s : State) : (s.loseGol).qs = s.qs := rfl
@[simp] theorem State.loseGol_huf (s : State) : (s.loseGol).huf = s.huf := rfl
@[simp] theorem State.loseGol_lz (s : State) : (s.loseGol).lz = s.lz := rfl
@[simp] theorem State.loseGol_cam (s : State) : (s.loseGol).cam = s.cam := rfl
@[simp] theorem State.loseGol_neko (s : State) : (s.loseGol).neko = s.neko := rfl
@[simp] theorem State.loseGol_xf (s : State) : (s.loseGol).xf = s.xf := rfl
@[simp] theorem State.loseGol_buf (s : State) : (s.loseGol).buf = s.buf := rfl
@[simp] theorem State.loseGol_tainted (s : State) : (s.loseGol).tainted = s.tainted := rfl
@[simp] theorem State.loseGol_draws (s : State) : (s.loseGol).draws = s.draws := rfl
@[simp] theorem State.loseGol_host (s : State) : (s.loseGol).host = s.host := rfl
@[simp] theorem State.loseGol_turns (s : State) : (s.loseGol).turns = s.turns := rfl
@[simp] theorem State.loseGol_seen (s : State) : (s.loseGol).seen = s.seen := rfl

/-! ## `State.loseLz` -/

@[simp] theorem State.loseLz_cfg (s : State) : (s.loseLz).cfg = s.cfg := rfl
@[simp] theorem State.loseLz_busy (s : State) : (s.loseLz).busy = s.busy := rfl
@[simp] theorem State.loseLz_done (s : State) : (s.loseLz).done = s.done := rfl
@[simp] theorem State.loseLz_err (s : State) : (s.loseLz).err = s.err := rfl
@[simp] theorem State.loseLz_ovr (s : State) : (s.loseLz).ovr = s.ovr := rfl
@[simp] theorem State.loseLz_errcode (s : State) : (s.loseLz).errcode = s.errcode := rfl
@[simp] theorem State.loseLz_errinfo (s : State) : (s.loseLz).errinfo = s.errinfo := rfl
@[simp] theorem State.loseLz_irqen (s : State) : (s.loseLz).irqen = s.irqen := rfl
@[simp] theorem State.loseLz_cmd (s : State) : (s.loseLz).cmd = s.cmd := rfl
@[simp] theorem State.loseLz_result (s : State) : (s.loseLz).result = s.result := rfl
@[simp] theorem State.loseLz_result1 (s : State) : (s.loseLz).result1 = s.result1 := rfl
@[simp] theorem State.loseLz_args (s : State) : (s.loseLz).args = s.args := rfl
@[simp] theorem State.loseLz_src (s : State) : (s.loseLz).src = s.src := rfl
@[simp] theorem State.loseLz_dst (s : State) : (s.loseLz).dst = s.dst := rfl
@[simp] theorem State.loseLz_lsb (s : State) : (s.loseLz).lsb = s.lsb := rfl
@[simp] theorem State.loseLz_rc (s : State) : (s.loseLz).rc = s.rc := rfl
@[simp] theorem State.loseLz_qs (s : State) : (s.loseLz).qs = s.qs := rfl
@[simp] theorem State.loseLz_huf (s : State) : (s.loseLz).huf = s.huf := rfl
@[simp] theorem State.loseLz_gol (s : State) : (s.loseLz).gol = s.gol := rfl
@[simp] theorem State.loseLz_cam (s : State) : (s.loseLz).cam = s.cam := rfl
@[simp] theorem State.loseLz_neko (s : State) : (s.loseLz).neko = s.neko := rfl
@[simp] theorem State.loseLz_xf (s : State) : (s.loseLz).xf = s.xf := rfl
@[simp] theorem State.loseLz_buf (s : State) : (s.loseLz).buf = s.buf := rfl
@[simp] theorem State.loseLz_tainted (s : State) : (s.loseLz).tainted = s.tainted := rfl
@[simp] theorem State.loseLz_draws (s : State) : (s.loseLz).draws = s.draws := rfl
@[simp] theorem State.loseLz_host (s : State) : (s.loseLz).host = s.host := rfl
@[simp] theorem State.loseLz_turns (s : State) : (s.loseLz).turns = s.turns := rfl
@[simp] theorem State.loseLz_seen (s : State) : (s.loseLz).seen = s.seen := rfl

/-! ## `State.loseXf` -/

@[simp] theorem State.loseXf_cfg (s : State) (n : Nat) : (s.loseXf n).cfg = s.cfg := rfl
@[simp] theorem State.loseXf_busy (s : State) (n : Nat) : (s.loseXf n).busy = s.busy := rfl
@[simp] theorem State.loseXf_done (s : State) (n : Nat) : (s.loseXf n).done = s.done := rfl
@[simp] theorem State.loseXf_err (s : State) (n : Nat) : (s.loseXf n).err = s.err := rfl
@[simp] theorem State.loseXf_ovr (s : State) (n : Nat) : (s.loseXf n).ovr = s.ovr := rfl
@[simp] theorem State.loseXf_errcode (s : State) (n : Nat) : (s.loseXf n).errcode = s.errcode := rfl
@[simp] theorem State.loseXf_errinfo (s : State) (n : Nat) : (s.loseXf n).errinfo = s.errinfo := rfl
@[simp] theorem State.loseXf_irqen (s : State) (n : Nat) : (s.loseXf n).irqen = s.irqen := rfl
@[simp] theorem State.loseXf_cmd (s : State) (n : Nat) : (s.loseXf n).cmd = s.cmd := rfl
@[simp] theorem State.loseXf_result (s : State) (n : Nat) : (s.loseXf n).result = s.result := rfl
@[simp] theorem State.loseXf_result1 (s : State) (n : Nat) : (s.loseXf n).result1 = s.result1 := rfl
@[simp] theorem State.loseXf_args (s : State) (n : Nat) : (s.loseXf n).args = s.args := rfl
@[simp] theorem State.loseXf_src (s : State) (n : Nat) : (s.loseXf n).src = s.src := rfl
@[simp] theorem State.loseXf_dst (s : State) (n : Nat) : (s.loseXf n).dst = s.dst := rfl
@[simp] theorem State.loseXf_lsb (s : State) (n : Nat) : (s.loseXf n).lsb = s.lsb := rfl
@[simp] theorem State.loseXf_rc (s : State) (n : Nat) : (s.loseXf n).rc = s.rc := rfl
@[simp] theorem State.loseXf_qs (s : State) (n : Nat) : (s.loseXf n).qs = s.qs := rfl
@[simp] theorem State.loseXf_huf (s : State) (n : Nat) : (s.loseXf n).huf = s.huf := rfl
@[simp] theorem State.loseXf_gol (s : State) (n : Nat) : (s.loseXf n).gol = s.gol := rfl
@[simp] theorem State.loseXf_lz (s : State) (n : Nat) : (s.loseXf n).lz = s.lz := rfl
@[simp] theorem State.loseXf_cam (s : State) (n : Nat) : (s.loseXf n).cam = s.cam := rfl
@[simp] theorem State.loseXf_neko (s : State) (n : Nat) : (s.loseXf n).neko = s.neko := rfl
@[simp] theorem State.loseXf_buf (s : State) (n : Nat) : (s.loseXf n).buf = s.buf := rfl
@[simp] theorem State.loseXf_tainted (s : State) (n : Nat) : (s.loseXf n).tainted = s.tainted := rfl
@[simp] theorem State.loseXf_draws (s : State) (n : Nat) : (s.loseXf n).draws = s.draws := rfl
@[simp] theorem State.loseXf_host (s : State) (n : Nat) : (s.loseXf n).host = s.host := rfl
@[simp] theorem State.loseXf_turns (s : State) (n : Nat) : (s.loseXf n).turns = s.turns := rfl
@[simp] theorem State.loseXf_seen (s : State) (n : Nat) : (s.loseXf n).seen = s.seen := rfl

/-! ## `State.loseXt` -/

@[simp] theorem State.loseXt_cfg (s : State) (n : Nat) : (s.loseXt n).cfg = s.cfg := rfl
@[simp] theorem State.loseXt_busy (s : State) (n : Nat) : (s.loseXt n).busy = s.busy := rfl
@[simp] theorem State.loseXt_done (s : State) (n : Nat) : (s.loseXt n).done = s.done := rfl
@[simp] theorem State.loseXt_err (s : State) (n : Nat) : (s.loseXt n).err = s.err := rfl
@[simp] theorem State.loseXt_ovr (s : State) (n : Nat) : (s.loseXt n).ovr = s.ovr := rfl
@[simp] theorem State.loseXt_errcode (s : State) (n : Nat) : (s.loseXt n).errcode = s.errcode := rfl
@[simp] theorem State.loseXt_errinfo (s : State) (n : Nat) : (s.loseXt n).errinfo = s.errinfo := rfl
@[simp] theorem State.loseXt_irqen (s : State) (n : Nat) : (s.loseXt n).irqen = s.irqen := rfl
@[simp] theorem State.loseXt_cmd (s : State) (n : Nat) : (s.loseXt n).cmd = s.cmd := rfl
@[simp] theorem State.loseXt_result (s : State) (n : Nat) : (s.loseXt n).result = s.result := rfl
@[simp] theorem State.loseXt_result1 (s : State) (n : Nat) : (s.loseXt n).result1 = s.result1 := rfl
@[simp] theorem State.loseXt_args (s : State) (n : Nat) : (s.loseXt n).args = s.args := rfl
@[simp] theorem State.loseXt_src (s : State) (n : Nat) : (s.loseXt n).src = s.src := rfl
@[simp] theorem State.loseXt_dst (s : State) (n : Nat) : (s.loseXt n).dst = s.dst := rfl
@[simp] theorem State.loseXt_lsb (s : State) (n : Nat) : (s.loseXt n).lsb = s.lsb := rfl
@[simp] theorem State.loseXt_rc (s : State) (n : Nat) : (s.loseXt n).rc = s.rc := rfl
@[simp] theorem State.loseXt_qs (s : State) (n : Nat) : (s.loseXt n).qs = s.qs := rfl
@[simp] theorem State.loseXt_huf (s : State) (n : Nat) : (s.loseXt n).huf = s.huf := rfl
@[simp] theorem State.loseXt_gol (s : State) (n : Nat) : (s.loseXt n).gol = s.gol := rfl
@[simp] theorem State.loseXt_lz (s : State) (n : Nat) : (s.loseXt n).lz = s.lz := rfl
@[simp] theorem State.loseXt_cam (s : State) (n : Nat) : (s.loseXt n).cam = s.cam := rfl
@[simp] theorem State.loseXt_neko (s : State) (n : Nat) : (s.loseXt n).neko = s.neko := rfl
@[simp] theorem State.loseXt_buf (s : State) (n : Nat) : (s.loseXt n).buf = s.buf := rfl
@[simp] theorem State.loseXt_tainted (s : State) (n : Nat) : (s.loseXt n).tainted = s.tainted := rfl
@[simp] theorem State.loseXt_draws (s : State) (n : Nat) : (s.loseXt n).draws = s.draws + drawsPerEvent := rfl
@[simp] theorem State.loseXt_host (s : State) (n : Nat) : (s.loseXt n).host = s.host := rfl
@[simp] theorem State.loseXt_turns (s : State) (n : Nat) : (s.loseXt n).turns = s.turns := rfl
@[simp] theorem State.loseXt_seen (s : State) (n : Nat) : (s.loseXt n).seen = s.seen := rfl

/-! ## `State.race` -/

@[simp] theorem State.race_cfg (s : State) : (s.race).cfg = s.cfg := rfl
@[simp] theorem State.race_busy (s : State) : (s.race).busy = s.busy := rfl
@[simp] theorem State.race_done (s : State) : (s.race).done = s.done := rfl
@[simp] theorem State.race_err (s : State) : (s.race).err = s.err := rfl
@[simp] theorem State.race_ovr (s : State) : (s.race).ovr = s.ovr := rfl
@[simp] theorem State.race_errcode (s : State) : (s.race).errcode = s.errcode := rfl
@[simp] theorem State.race_errinfo (s : State) : (s.race).errinfo = s.errinfo := rfl
@[simp] theorem State.race_irqen (s : State) : (s.race).irqen = s.irqen := rfl
@[simp] theorem State.race_cmd (s : State) : (s.race).cmd = s.cmd := rfl
@[simp] theorem State.race_result (s : State) : (s.race).result = s.result := rfl
@[simp] theorem State.race_result1 (s : State) : (s.race).result1 = s.result1 := rfl
@[simp] theorem State.race_args (s : State) : (s.race).args = s.args := rfl
@[simp] theorem State.race_src (s : State) : (s.race).src = s.src := rfl
@[simp] theorem State.race_dst (s : State) : (s.race).dst = s.dst := rfl
@[simp] theorem State.race_lsb (s : State) : (s.race).lsb = s.lsb := rfl
@[simp] theorem State.race_rc (s : State) : (s.race).rc = s.rc := rfl
@[simp] theorem State.race_qs (s : State) : (s.race).qs = s.qs := rfl
@[simp] theorem State.race_huf (s : State) : (s.race).huf = s.huf := rfl
@[simp] theorem State.race_gol (s : State) : (s.race).gol = s.gol := rfl
@[simp] theorem State.race_lz (s : State) : (s.race).lz = s.lz := rfl
@[simp] theorem State.race_cam (s : State) : (s.race).cam = s.cam := rfl
@[simp] theorem State.race_neko (s : State) : (s.race).neko = s.neko := rfl
@[simp] theorem State.race_xf (s : State) : (s.race).xf = s.xf := rfl
@[simp] theorem State.race_buf (s : State) : (s.race).buf = s.buf := rfl
@[simp] theorem State.race_tainted (s : State) : (s.race).tainted = (s.tainted || s.busy) := rfl
@[simp] theorem State.race_draws (s : State) : (s.race).draws = s.draws := rfl
@[simp] theorem State.race_host (s : State) : (s.race).host = s.host := rfl
@[simp] theorem State.race_turns (s : State) : (s.race).turns = s.turns := rfl
@[simp] theorem State.race_seen (s : State) : (s.race).seen = s.seen := rfl

/-! ## `State.see` -/

@[simp] theorem State.see_cfg (s : State) (v : Word) : (s.see v).cfg = s.cfg := rfl
@[simp] theorem State.see_busy (s : State) (v : Word) : (s.see v).busy = s.busy := rfl
@[simp] theorem State.see_done (s : State) (v : Word) : (s.see v).done = s.done := rfl
@[simp] theorem State.see_err (s : State) (v : Word) : (s.see v).err = s.err := rfl
@[simp] theorem State.see_ovr (s : State) (v : Word) : (s.see v).ovr = s.ovr := rfl
@[simp] theorem State.see_errcode (s : State) (v : Word) : (s.see v).errcode = s.errcode := rfl
@[simp] theorem State.see_errinfo (s : State) (v : Word) : (s.see v).errinfo = s.errinfo := rfl
@[simp] theorem State.see_irqen (s : State) (v : Word) : (s.see v).irqen = s.irqen := rfl
@[simp] theorem State.see_cmd (s : State) (v : Word) : (s.see v).cmd = s.cmd := rfl
@[simp] theorem State.see_result (s : State) (v : Word) : (s.see v).result = s.result := rfl
@[simp] theorem State.see_result1 (s : State) (v : Word) : (s.see v).result1 = s.result1 := rfl
@[simp] theorem State.see_args (s : State) (v : Word) : (s.see v).args = s.args := rfl
@[simp] theorem State.see_src (s : State) (v : Word) : (s.see v).src = s.src := rfl
@[simp] theorem State.see_dst (s : State) (v : Word) : (s.see v).dst = s.dst := rfl
@[simp] theorem State.see_lsb (s : State) (v : Word) : (s.see v).lsb = s.lsb := rfl
@[simp] theorem State.see_rc (s : State) (v : Word) : (s.see v).rc = s.rc := rfl
@[simp] theorem State.see_qs (s : State) (v : Word) : (s.see v).qs = s.qs := rfl
@[simp] theorem State.see_huf (s : State) (v : Word) : (s.see v).huf = s.huf := rfl
@[simp] theorem State.see_gol (s : State) (v : Word) : (s.see v).gol = s.gol := rfl
@[simp] theorem State.see_lz (s : State) (v : Word) : (s.see v).lz = s.lz := rfl
@[simp] theorem State.see_cam (s : State) (v : Word) : (s.see v).cam = s.cam := rfl
@[simp] theorem State.see_neko (s : State) (v : Word) : (s.see v).neko = s.neko := rfl
@[simp] theorem State.see_xf (s : State) (v : Word) : (s.see v).xf = s.xf := rfl
@[simp] theorem State.see_buf (s : State) (v : Word) : (s.see v).buf = s.buf := rfl
@[simp] theorem State.see_tainted (s : State) (v : Word) : (s.see v).tainted = s.tainted := rfl
@[simp] theorem State.see_draws (s : State) (v : Word) : (s.see v).draws = s.draws := rfl
@[simp] theorem State.see_host (s : State) (v : Word) : (s.see v).host = s.host := rfl
@[simp] theorem State.see_turns (s : State) (v : Word) : (s.see v).turns = s.turns := rfl
@[simp] theorem State.see_seen (s : State) (v : Word) : (s.see v).seen = v :: s.seen := rfl

/-! ## Views the updates leave alone -/

@[simp] theorem State.arg_complete (s : State) (i : Fin 8) : s.complete.arg i = s.arg i := rfl
@[simp] theorem State.arg_setResult (s : State) (v : Word) (i : Fin 8) : (s.setResult v).arg i = s.arg i := rfl
@[simp] theorem State.arg_setResult1 (s : State) (v : Word) (i : Fin 8) : (s.setResult1 v).arg i = s.arg i := rfl
@[simp] theorem State.arg_withIo (s : State) (io : Io) (i : Fin 8) : (s.withIo io).arg i = s.arg i := rfl
@[simp] theorem State.arg_withPos (s : State) (io : Io) (i : Fin 8) : (s.withPos io).arg i = s.arg i := rfl
@[simp] theorem State.taint_setResult (s : State) (v : Word) : (s.setResult v).taint = s.taint := rfl
@[simp] theorem State.taint_setResult1 (s : State) (v : Word) : (s.setResult1 v).taint = s.taint := rfl

end Sys2Proof.Machine
end

