-- ==== Sys2Proof/Laws/Terms.lean ====
section
/-! SUPPORT. The terms of the statements beside the operations they stand for: an abort, a run of one command, an output of the
inverse DCT. -/

namespace Sys2Proof.Machine

/-- The ERRCODE word of R510 as a sum. -/
theorem errWord_eq {unit op : Nat} (hu : unit < 16) (ho : op < 16) (e : Err) :
    errWord ⟨unit, op⟩ e = BitVec.ofNat 32 (e.code + 256 * unit + 4096 * op) := by
  have h : ∀ u : Fin 16, ∀ o : Fin 16, errWord ⟨u.val, o.val⟩ e = BitVec.ofNat 32 (e.code + 256 * u.val + 4096 * o.val) := by
    cases e <;> decide
  exact h ⟨unit, hu⟩ ⟨op, ho⟩

/-- An abort written out. -/
theorem abort_eq_aborted {unit op : Nat} (hu : unit < 16) (ho : op < 16) (s : State) (r : Raise) :
    s.abort ⟨unit, op⟩ r = s.aborted unit op r.err.code r.info := by
  simp [State.abort, State.aborted, errWord_eq hu ho]

/-- A completion written out. -/
theorem complete_eq_finished (s : State) : s.complete = s.finished := rfl

theorem State.run_of_exec {s t : State} {i : Instr} (h : exec i s = .next t) : s.run i = t := by
  simp [State.run, h]

/-- A command that fails a check aborts with its error. -/
theorem aborted_of_check {i : Instr} {s after : State} {unit op : Nat} {checks : Run Unit} {body : Run State} {r : Raise}
    (hu : unit < 16) (ho : op < 16) (hi : exec i s = runCommand s ⟨unit, op⟩ checks body after) (hc : checks = .error r) :
    exec i s = .next (s.aborted unit op r.err.code r.info) := by
  rw [hi, runCommand_refuse hc, abort_eq_aborted hu ho]

/-- What the degree check of the XF commands can do (47_transform.md R440). -/
theorem checkDegree_ok {d : BitVec 4} (h : degreeOk d = true) : checkDegree d = .ok () := require_ok.2 h

theorem checkDegree_error {d : BitVec 4} (h : degreeOk d = false) : checkDegree d = .error ⟨.badOperand, immWord d⟩ :=
  require_error.2 ⟨h, rfl⟩

/-- A command whose body raises an error raises it. -/
theorem raises_of_body {i : Instr} {s after : State} {unit op : Nat} {checks : Run Unit} {body : Run State} {r : Raise}
    (hu : unit < 16) (ho : op < 16) (hi : exec i s = runCommand s ⟨unit, op⟩ checks body after) (hc : checks = .ok ())
    (hb : body = .error r) : raises i s unit op r.err.code r.info := by
  refine ⟨_, hi.trans (runCommand_fail hc hb), rfl, ?_, rfl⟩
  simp [State.abort, errWord_eq hu ho]

/-- Everything an output of XF_IDCT can be where P-XF.2 applies. -/
theorem dctEntry_cases (degree : Nat) (xs : List F32) (n : Nat) :
    (dctMeets degree xs n (dctEntry degree xs n) = true)
    ∨ (dctMeets degree xs n (dctNearest degree xs n) = false
      ∧ (dctClose degree xs n (dctEntry degree xs n) = true ∨ dctEntry degree xs n = dctNearest degree xs n)) := by
  unfold dctEntry
  by_cases hy : dctMeets degree xs n (Config.idctRaw degree xs n) = true
  · simp [hy]
  · by_cases hz : dctMeets degree xs n (dctNearest degree xs n) = true
    · simp [hy, hz]
    · by_cases hc : dctClose degree xs n (Config.idctRaw degree xs n) = true <;> simp [hy, hz, hc]

end Sys2Proof.Machine
end

