-- ==== Sys2Proof/Laws/Trees.lean ====
section
/-! SUPPORT. One lemma per field per update of a Huffman tree, so that no proof unfolds a record update. -/

namespace Sys2Proof.Machine

variable (t : Tree)

/-! ## `Tree.fix` -/

@[simp] theorem Tree.fix_w (pos : Nat) : (t.fix pos).w = t.w := by
  simp only [Tree.fix]
  try split
  all_goals (try split)
  all_goals rfl
@[simp] theorem Tree.fix_c (pos : Nat) : (t.fix pos).c = t.c := by
  simp only [Tree.fix]
  try split
  all_goals (try split)
  all_goals rfl
@[simp] theorem Tree.fix_tp (pos : Nat) : (t.fix pos).tp = t.tp := by
  simp only [Tree.fix]
  try split
  all_goals (try split)
  all_goals rfl

/-! ## `Tree.recount` -/

@[simp] theorem Tree.recount_w (q : Nat) : (t.recount q).w = t.w.set q (t.w.get (t.child q) + t.w.get (t.child q + 1)) := rfl
@[simp] theorem Tree.recount_p (q : Nat) : (t.recount q).p = t.p := rfl
@[simp] theorem Tree.recount_c (q : Nat) : (t.recount q).c = t.c := rfl
@[simp] theorem Tree.recount_sym (q : Nat) : (t.recount q).sym = t.sym := rfl
@[simp] theorem Tree.recount_esc (q : Nat) : (t.recount q).esc = t.esc := rfl
@[simp] theorem Tree.recount_tp (q : Nat) : (t.recount q).tp = t.tp := rfl

/-! ## `Tree.moveNode` -/

@[simp] theorem Tree.moveNode_w (dest src : Nat) : (t.moveNode dest src).w = t.w.set dest (t.w.get src) := rfl
@[simp] theorem Tree.moveNode_p (dest src : Nat) : (t.moveNode dest src).p = t.p.set dest (t.p.get src) := rfl
@[simp] theorem Tree.moveNode_c (dest src : Nat) : (t.moveNode dest src).c = t.c.set dest (t.c.get src) := rfl
@[simp] theorem Tree.moveNode_sym (dest src : Nat) : (t.moveNode dest src).sym = t.sym := rfl
@[simp] theorem Tree.moveNode_esc (dest src : Nat) : (t.moveNode dest src).esc = t.esc := rfl
@[simp] theorem Tree.moveNode_tp (dest src : Nat) : (t.moveNode dest src).tp = t.tp := rfl

/-! ## `Tree.swapNodes` -/

@[simp] theorem Tree.swapNodes_w (a b : Nat) : (t.swapNodes a b).w = (t.w.set a (t.w.get b)).set b (t.w.get a) := rfl
@[simp] theorem Tree.swapNodes_p (a b : Nat) : (t.swapNodes a b).p = t.p := rfl
@[simp] theorem Tree.swapNodes_c (a b : Nat) : (t.swapNodes a b).c = (t.c.set a (t.c.get b)).set b (t.c.get a) := rfl
@[simp] theorem Tree.swapNodes_sym (a b : Nat) : (t.swapNodes a b).sym = t.sym := rfl
@[simp] theorem Tree.swapNodes_esc (a b : Nat) : (t.swapNodes a b).esc = t.esc := rfl
@[simp] theorem Tree.swapNodes_tp (a b : Nat) : (t.swapNodes a b).tp = t.tp := rfl

/-! ## `Tree.setParent` -/

@[simp] theorem Tree.setParent_w (i : Nat) (w : BitVec 16) (c : Nat) : (t.setParent i w c).w = t.w.set i w := rfl
@[simp] theorem Tree.setParent_p (i : Nat) (w : BitVec 16) (c : Nat) : (t.setParent i w c).p = t.p := rfl
@[simp] theorem Tree.setParent_c (i : Nat) (w : BitVec 16) (c : Nat) : (t.setParent i w c).c = t.c.set i (BitVec.ofNat 32 c) := rfl
@[simp] theorem Tree.setParent_sym (i : Nat) (w : BitVec 16) (c : Nat) : (t.setParent i w c).sym = t.sym := rfl
@[simp] theorem Tree.setParent_esc (i : Nat) (w : BitVec 16) (c : Nat) : (t.setParent i w c).esc = t.esc := rfl
@[simp] theorem Tree.setParent_tp (i : Nat) (w : BitVec 16) (c : Nat) : (t.setParent i w c).tp = t.tp := rfl

/-! ## `Tree.fix`, by the kind of node -/

theorem Tree.fix_inner {pos : Nat} (h : isLeafCode (t.c.get pos) = false) :
    t.fix pos = { t with p := (t.p.set (t.child pos) (nodeRef pos)).set (t.child pos + 1) (nodeRef pos) } := by
  simp [Tree.fix, Tree.child, h]

theorem Tree.fix_escape {pos : Nat} (h : t.c.get pos = hufEscape) : t.fix pos = { t with esc := nodeRef pos } := by
  have hm : isLeafCode hufEscape = true := by decide
  simp [Tree.fix, h, hm]

theorem Tree.fix_leaf {pos : Nat} (h : isLeafCode (t.c.get pos) = true) (he : t.c.get pos ≠ hufEscape) :
    t.fix pos = { t with sym := t.sym.set ((t.c.get pos).toNat % 256) (nodeRef pos) } := by
  simp [Tree.fix, h, he]

end Sys2Proof.Machine
end

