-- ==== Sys2Proof/Tests/Slice0.lean ====
section
/-! SUPPORT. Tests: the operand check refuses each ill-formed term; words written out from 30_encoding.md R135 decode; vectors of
spec/95_test_vectors.md, one step each; and for every statement with hypotheses a concrete state and operands that meet them. -/

namespace Sys2Proof.Tests

open Sys2Proof Sys2Proof.Machine

set_option Elab.async false

/-! ## Helpers -/

/-- BUF with these bytes from address `a` on. -/
def bufferAt (a : Nat) (bytes : List Nat) : Store 8 :=
  ⟨.free 1 0, bytes.zipIdx.map (fun p => (a + p.2, BitVec.ofNat 8 p.1))⟩

/-- Reset with a command pending, these source bytes at 0x100, the cursor at bit `pos`, and 16 destination bytes at 0x200. -/
def start (bytes : List Nat) (pos : Nat) : State :=
  { State.reset with
    busy := true
    buf := bufferAt 0x100 bytes
    src := ⟨0x100, BitVec.ofNat 32 bytes.length, BitVec.ofNat 32 pos⟩
    dst := ⟨0x200, 16, 0⟩ }

/-- `args a, b, c, d` (30_encoding.md R140). -/
def args (s : State) (a b c d : Word) : State := { s with args := #v[a, b, c, d, 0, 0, 0, 0] }

/-- The state after one command. -/
def after (i : Instr) (s : State) : State :=
  match exec i s with
  | .next t => t
  | .fault _ => s
  | .refused _ => s

theorem exec_after (i : Instr) (s : State) : exec i s = .next (after i s) := by
  have h : ∃ t, exec i s = .next t := by
    cases i <;> simp only [exec,
      execBrAlign, execBrGetbit, execBrGetbits, execBrInit, execBrPeekbits, execCamDecblk, execCamDecrange,
      execCamSetkey, execGolDecode, execGolGamma, execGolResetctx, execGolRunlen, execGolValue,
      execHufGetcode, execHufInit, execHufSetctx, execLzDecompress, execLzInit, execNekoDecrypt,
      execNekoSethash, execNekoSetkey64, execNop, execQsGetfreq, execQsGetsym, execQsInit, execQsReset,
      execQsUpdate, execRcCulshift, execRcDecode, execRcNormalize, execRcStart, execRcUpdate, execSrstUnit,
      execXfClrcarry, execXfGivens, execXfIdct, execXfIlot, execXfIplot, execXfIquant, execXfLoadf,
      execXfLoadq, execXfRestore, execXfStore16, execXfStoref]
      <;> exact runCommand_next _ _ _ _ _
  obtain ⟨t, ht⟩ := h
  simp [after, ht]

/-- The listed entries of an array as numbers. -/
def entries {w : Nat} (a : Store w) (is : List Nat) : List Nat := is.map (fun i => (a.get i).toNat)

/-! ## WellFormed refuses one ill-formed term for each check (30_encoding.md R136) -/

theorem test_srst_unit_10_illformed : (Instr.srstUnit 10).wellFormed = false := by decide
theorem test_srst_unit_14_illformed : (Instr.srstUnit 14).wellFormed = false := by decide
theorem test_getbits_33_illformed : (Instr.brGetbits 33).wellFormed = false := by decide
theorem test_peekbits_33_illformed : (Instr.brPeekbits 33).wellFormed = false := by decide
theorem test_culshift_0_illformed : (Instr.rcCulshift 0).wellFormed = false := by decide
theorem test_culshift_17_illformed : (Instr.rcCulshift 17).wellFormed = false := by decide
theorem test_qs_init_8_illformed : (Instr.qsInit 8).wellFormed = false := by decide
theorem test_lz_decompress_5_illformed : (Instr.lzDecompress 5).wellFormed = false := by decide
theorem test_xf_degree_1_illformed : (Instr.xfIdct 1).wellFormed = false := by decide
theorem test_xf_degree_13_illformed : (Instr.xfRestore 13).wellFormed = false := by decide
theorem test_legal_bounds_wellformed : (Instr.srstUnit 15).wellFormed ∧ (Instr.brGetbits 32).wellFormed
    ∧ (Instr.rcCulshift 16).wellFormed ∧ (Instr.qsInit 9).wellFormed ∧ (Instr.lzDecompress 4).wellFormed
    ∧ (Instr.xfLoadq 12).wellFormed := by decide

/-! ## Every constructor's word, written out from 30_encoding.md R135 and the `cw` column of spec/95_test_vectors.md -/

theorem test_decode_sys : decode 0x00000000 = .ok .nop ∧ decode 0x0100000F = .ok (.srstUnit 15) := by decide
theorem test_decode_br : decode 0x10000001 = .ok (.brInit 1) ∧ decode 0x11000000 = .ok .brGetbit
    ∧ decode 0x12000020 = .ok (.brGetbits 32) ∧ decode 0x13000004 = .ok (.brPeekbits 4)
    ∧ decode 0x14000000 = .ok .brAlign := by decide
theorem test_decode_rc : decode 0x20000000 = .ok .rcStart ∧ decode 0x2100000C = .ok (.rcCulshift 12)
    ∧ decode 0x22000000 = .ok .rcUpdate ∧ decode 0x23000000 = .ok .rcNormalize
    ∧ decode 0x24000000 = .ok .rcDecode := by decide
theorem test_decode_qs : decode 0x3000000C = .ok (.qsInit 12) ∧ decode 0x31000000 = .ok .qsReset
    ∧ decode 0x32000000 = .ok .qsGetsym ∧ decode 0x33000000 = .ok .qsGetfreq
    ∧ decode 0x34000000 = .ok .qsUpdate := by decide
theorem test_decode_huf : decode 0x40000001 = .ok (.hufInit 1) ∧ decode 0x41000000 = .ok .hufGetcode
    ∧ decode 0x42000000 = .ok .hufSetctx := by decide
theorem test_decode_gol : decode 0x50000000 = .ok .golGamma ∧ decode 0x51000000 = .ok .golRunlen
    ∧ decode 0x52000000 = .ok .golValue ∧ decode 0x53000000 = .ok .golResetctx
    ∧ decode 0x54000000 = .ok .golDecode := by decide
theorem test_decode_lz : decode 0x60000000 = .ok .lzInit ∧ decode 0x61000002 = .ok (.lzDecompress 2) := by decide
theorem test_decode_cam : decode 0x70000000 = .ok .camSetkey ∧ decode 0x71000000 = .ok .camDecblk
    ∧ decode 0x72000000 = .ok .camDecrange := by decide
theorem test_decode_neko : decode 0x80000000 = .ok .nekoSetkey64 ∧ decode 0x81000000 = .ok .nekoSethash
    ∧ decode 0x82000000 = .ok .nekoDecrypt := by decide
theorem test_decode_xf : decode 0x90000002 = .ok (.xfLoadq 2) ∧ decode 0x91000002 = .ok (.xfIquant 2)
    ∧ decode 0x92000002 = .ok (.xfGivens 2) ∧ decode 0x93000002 = .ok (.xfIplot 2) ∧ decode 0x94000002 = .ok (.xfIlot 2)
    ∧ decode 0x9500000D = .ok (.xfIdct 13) ∧ decode 0x96000002 = .ok (.xfStore16 2) ∧ decode 0x97000000 = .ok .xfClrcarry
    ∧ decode 0x98000002 = .ok (.xfLoadf 2) ∧ decode 0x99000002 = .ok (.xfStoref 2)
    ∧ decode 0x9A00000C = .ok (.xfRestore 12) := by decide

/-- SYS3 to SYS6: set reserved bits, a reserved unit and a reserved operation are no command. -/
theorem test_decode_refuses : (decode 0x00000001).toOption = none ∧ (decode 0xA0000000).toOption = none
    ∧ (decode 0x1F000000).toOption = none ∧ (decode 0x12000040).toOption = none := by decide

/-- The host's question: a table word placed where the next step runs it. -/
theorem test_table_word : decodeTableWord 32 0x12000021 = some (.brGetbits 33)
    ∧ (State.reset.withFetchWord 32 0x12000021).cmd = 0x12000021 := by decide

/-! ## Vectors of spec/95_test_vectors.md, one command each -/

/-- SYS1. -/
theorem test_nop : (after .nop (start [] 0)).statusWord = 2 := by decide +kernel
/-- SYS8. -/
theorem test_srst_unit_12 : (after (.srstUnit 12) (start [] 0)).errcode = 0x1005
    ∧ (after (.srstUnit 12) (start [] 0)).errinfo = 12 := by decide +kernel
/-- SYS9. -/
theorem test_srst_unit_15 : let t := after (.srstUnit 15) { start [] 0 with gol := ⟨5, 1⟩, neko := ⟨true, 7⟩ }
    t.unitstat = 0 ∧ t.gol.n = 3 ∧ t.neko.key = 0 ∧ t.dst.base = 0x200 := by decide +kernel
/-- SYS5 through a whole step. -/
theorem test_step_illegal : ∃ t, step { start [] 0 with cmd := 0x1F000000 } = .next t ∧ t.errcode = 0xF104
    ∧ t.errinfo = 0x1F000000 := ⟨_, rfl, by decide, by decide⟩
/-- BR14. -/
theorem test_br_init : (after (.brInit 1) (start [] 0)).unitstat = 0x40 := by decide +kernel
/-- BR1. -/
theorem test_br_getbit : let t := after .brGetbit (start [0x80] 0); t.result = 1 ∧ t.src.pos = 1 := by decide +kernel
/-- BR2. -/
theorem test_br_getbits_msb : let t := after (.brGetbits 12) (start [0xA5, 0x0F] 0)
    t.result = 0xA50 ∧ t.src.pos = 12 := by decide +kernel
/-- BR3. -/
theorem test_br_getbits_lsb : (after (.brGetbits 12) { start [0xA5, 0x0F] 0 with lsb := true }).result = 0xFA5 := by
  decide +kernel
/-- BR9. -/
theorem test_br_peekbits : let t := after (.brPeekbits 4) (start [0xC0] 6)
    t.result = 0 ∧ t.result1 = 2 ∧ t.src.pos = 6 := by decide +kernel
/-- BR12. -/
theorem test_br_align : let t := after .brAlign (start [0, 0, 0, 0] 13); t.result = 3 ∧ t.src.pos = 16 := by decide +kernel

/-- The state after RC1. -/
def rcStarted : State := { start [0x00, 0x80, 0x12, 0x34, 0x56, 0x78, 0x9A] 16 with rc := ⟨0x40, 0x80, 0, 0x80, .decoding⟩ }

/-- RC1. -/
theorem test_rc_start : let t := after .rcStart (start [0x00, 0x80, 0x12, 0x34, 0x56, 0x78, 0x9A] 0)
    t.result = 0 ∧ t.rc = ⟨0x40, 0x80, 0, 0x80, .decoding⟩ ∧ t.src.pos = 16 := by decide +kernel
/-- RC2. -/
theorem test_rc_normalize : let t := after .rcNormalize rcStarted
    t.result = 3 ∧ t.rc.low = 0x40091A2B ∧ t.rc.range = 0x80000000 ∧ t.rc.buffer = 0x56 ∧ t.src.pos = 40 := by decide +kernel
/-- RC3. -/
theorem test_rc_culshift : let t := after (.rcCulshift 12) rcStarted
    t.result = 2049 ∧ t.rc.help = 0x80000 := by decide +kernel
/-- RC5: the last-symbol branch. -/
theorem test_rc_update_last :
    let t := after .rcUpdate (args { start [] 0 with rc := ⟨0x40091A2B, 0x800000, 0x80000, 0x56, .decoding⟩ } 15 4081 4096 0)
    t.rc.low = 0xC0811A2B ∧ t.rc.range = 0x80F80000 := by decide +kernel
/-- RC19. -/
theorem test_rc_decode_not_ready : (after .rcDecode (start [0] 0)).errcode = 0x420A := by decide +kernel
/-- QS4. -/
theorem test_qs_init_8 : (after (.qsInit 8) (args (start [] 0) 2000 0 0 0)).errcode = 0x0305 := by decide +kernel
/-- QS1. -/
theorem test_qs_init : let t := after (.qsInit 12) (args (start [] 0) 2000 0 0 0)
    entries t.qs.cf [256, 257] = [4081, 4096] ∧ t.qs.rescale = 36 ∧ t.qs.lgTotf = 12 ∧ t.qs.valid = true := by decide +kernel
/-- HUF: a fresh model's first code is a bare literal (95, program P6). -/
theorem test_huf_getcode_literal : let t := after .hufGetcode (after (.hufInit 1) (start [0x41, 0x42] 0))
    t.result = 0x41 ∧ t.result1 = 1 ∧ t.huf.last = 0x41 ∧ t.src.pos = 8 := by decide +kernel
/-- 42_huffman.md R281. -/
theorem test_huf_setctx : (after .hufSetctx (args { start [] 0 with huf := ⟨true, true, 0, unspecifiedTrees 0⟩ } 0x5A 0 0 0)).huf.last
    = 0x5A := by decide +kernel
/-- 43_golomb_gamma.md R300: the bits `1 d 1 d 0` with `d = 1, 0`. -/
theorem test_gol_gamma : let t := after .golGamma (start [0xE0] 0)
    t.result = 6 ∧ t.result1 = 5 ∧ t.src.pos = 5 := by decide +kernel
/-- R301: the bits `0 0 1 0 1`. -/
theorem test_gol_runlen : let t := after .golRunlen (start [0x28] 0)
    t.result = 5 ∧ t.result1 = 5 := by decide +kernel
/-- R318: `a = 0`, `n = 3` give length 0; the bits `0 1` are code 1, residual 1. -/
theorem test_gol_value : let t := after .golValue (start [0x40] 0)
    t.result = 1 ∧ t.result1 = 0 ∧ t.gol = ⟨0, 2⟩ := by decide +kernel
/-- R317. -/
theorem test_gol_resetctx : (after .golResetctx { start [] 0 with gol := ⟨9, 0⟩ }).gol = ⟨0, 3⟩ := by decide +kernel
/-- R320: `0` for zeros, the run `0 1 1` of 3. -/
theorem test_gol_decode : let t := after .golDecode (args (start [0x30] 0) 3 2 0 0)
    t.result = 3 ∧ entries t.buf [0x200, 0x202, 0x204] = [0, 0, 0] ∧ t.dst.pos = 0 := by decide +kernel
/-- LZ16. -/
theorem test_lz_init_refuses : let t := after .lzInit (args (start [] 0) 100 0 0 0)
    t.errcode = 0x0605 ∧ t.errinfo = 100 := by decide +kernel
/-- Program P3: a match that copies bytes it wrote itself. -/
theorem test_lz_std : let s := { start [0x17, 0x41, 0x42, 0x43, 0xEE, 0xF3, 0x58] 0 with
      lz := ⟨true, blankStore 0, 0xFEE, 4096, 0⟩, dst := ⟨0x200, 10, 0⟩ }
    let t := after (.lzDecompress 0) s
    t.result = 10 ∧ memRead t.buf 0x200 10 = [0x41, 0x42, 0x43, 0x41, 0x42, 0x43, 0x41, 0x42, 0x43, 0x58]
      ∧ t.lz.r = 0xFF8 ∧ t.src.pos = 56 := by decide +kernel
/-- CAM2: the derived key of RFC 3713's key. -/
theorem test_cam_setkey : (after .camSetkey (args (start [] 0) 0x01234567 0x89ABCDEF 0xFEDCBA98 0x76543210)).cam.ka
    = 0xAE71C3D55BA6BF1D169240A795F89256 := by decide +kernel
/-- CAM1. -/
theorem test_cam_decblk :
    let t := after .camDecblk { start [0x67, 0x67, 0x31, 0x38, 0x54, 0x96, 0x69, 0x73, 0x08, 0x57, 0x06, 0x56, 0x48, 0xEA, 0xBE,
        0x43] 0 with
      args := #v[0, 0, 0, 0, 0x100, 0, 0, 0]
      cam := ⟨true, 0x0123456789ABCDEFFEDCBA9876543210, 0xAE71C3D55BA6BF1D169240A795F89256⟩ }
    memRead t.buf 0x100 16 = [0x01, 0x23, 0x45, 0x67, 0x89, 0xAB, 0xCD, 0xEF, 0xFE, 0xDC, 0xBA, 0x98, 0x76, 0x54, 0x32, 0x10] := by
  decide +kernel
/-- CAM10: no wrap-around. -/
theorem test_cam_decrange_bounds :
    let t := after .camDecrange { start [] 0 with args := #v[0, 0, 0, 0, 0xFFFFFFF8, 0, 0, 32], cam := ⟨true, 0, 0⟩ }
    t.errcode = 0x2706 ∧ t.errinfo = 0xFFFFFFF8 := by decide +kernel
/-- NEKO1. -/
theorem test_neko_setkey64 : (after .nekoSetkey64 (args (start [] 0) 0x89ABCDEF 0x01234567 0 0)).neko.key
    = 0x0123456789ABCDEF := by decide +kernel
/-- NEKO2. -/
theorem test_neko_decrypt :
    let t := after .nekoDecrypt (args { start [0xEF, 0xCC, 0xA9, 0x8A, 0x63, 0x40, 0x25, 0x06, 0xD6, 0x93, 0x5E, 0x1F, 0xC6, 0x88,
      0x46, 0x08, 0xAA, 0xBB, 0xCC] 0 with neko := ⟨true, 0x0123456789ABCDEF⟩ } 0 0 0x100 19)
    t.result = 16 ∧ t.neko.key = 0x0F8E0E9033B22EB4
      ∧ memRead t.buf 0x100 19 = [0, 1, 2, 3, 4, 5, 6, 7, 8, 9, 10, 11, 12, 13, 14, 15, 0xAA, 0xBB, 0xCC] := by decide +kernel
/-- XF1. -/
theorem test_xf_loadq : (after (.xfLoadq 2) (args (start [2, 0, 0, 0, 0xFD, 0xFF, 0xFF, 0xFF, 0, 0, 0, 0, 7, 0, 0, 0] 0) 0x100 0 0
    0)).xf.xq.cells = [(0, 2), (1, 0xFFFFFFFD), (2, 0), (3, 7)] := by decide +kernel
/-- XF2. -/
theorem test_xf_loadf : (after (.xfLoadf 2) (args (start [0, 0, 0x80, 0x3F, 0, 0, 0, 0x40, 0, 0, 0x40, 0x40, 0, 0, 0x80, 0xC0] 0)
    0x100 0 0 0)).xf.xa.cells = [(0, 0x3F800000), (1, 0x40000000), (2, 0x40400000), (3, 0xC0800000)] := by decide +kernel

/-- XA = 1.0, 2.0, 3.0, -4.0. -/
def block1 : Store 32 := ⟨.known 0, [(0, 0x3F800000), (1, 0x40000000), (2, 0x40400000), (3, 0xC0800000)]⟩
/-- XA = 3.0, -1.0, -1.0, 7.0. -/
def block2 : Store 32 := ⟨.known 0, [(0, 0x40400000), (1, 0xBF800000), (2, 0xBF800000), (3, 0x40E00000)]⟩
/-- A state with this XA. -/
def withXa (xa : Store 32) : State := { start [] 0 with xf := { State.reset.xf with xa := xa } }

/-- XF3. -/
theorem test_xf_iplot : (after (.xfIplot 2) (withXa block1)).xf.xa = block2 := by decide +kernel
/-- XF4. -/
theorem test_xf_storef : memRead (after (.xfStoref 2) (args (withXa block2) 0x300 0 0 0)).buf 0x300 16
    = [0, 0, 0x40, 0x40, 0, 0, 0x80, 0xBF, 0, 0, 0x80, 0xBF, 0, 0, 0xE0, 0x40] := by decide +kernel
/-- XF6: a stride of -2. -/
theorem test_xf_store16 : memRead (after (.xfStore16 2) (args (withXa block2) 6 0xFFFFFFFE 0 0)).buf 0 8
    = [7, 0, 0xFF, 0xFF, 0xFF, 0xFF, 3, 0] := by decide +kernel
/-- XF9: the lowest NaN. -/
theorem test_xf_store16_nan : let t := after (.xfStore16 2) (args (withXa (block2.set 2 0x7FC00000)) 0x300 2 0 0)
    t.errcode = 0x6901 ∧ t.errinfo = 2 ∧ t.buf = (withXa block2).buf := by decide +kernel
/-- XF11. -/
theorem test_xf_ilot : let t := after (.xfIlot 2) { start [] 0 with xf := { State.reset.xf with
      xa := ⟨.known 0, [(0, 0x3F800000), (1, 0x40000000), (2, 0x40400000), (3, 0x40800000)]⟩
      xc := ⟨.known 0, [(0, 0x41200000), (1, 0x41A00000), (2, 0x41F00000), (3, 0x42200000)]⟩ } }
    t.xf.xa.cells = [(0, 0x41400000), (1, 0x41000000), (2, 0x42080000), (3, 0x41D00000)]
      ∧ t.xf.xc.cells = [(0, 0x3F800000), (1, 0x40000000), (2, 0x40400000), (3, 0x40800000)] := by decide +kernel
/-- XF18. -/
theorem test_xf_clrcarry : (after .xfClrcarry { start [] 0 with xf := { State.reset.xf with xc := block1 } }).xf.xc.cells = [] := by
  decide +kernel
/-- XF13. -/
theorem test_xf_idct_13 : (after (.xfIdct 13) (start [] 0)).errcode = 0x5905 := by decide +kernel
/-- 47_transform.md R440. -/
theorem test_xf_iquant_givens_degree : (after (.xfIquant 1) (start [] 0)).errcode = 0x1905
    ∧ (after (.xfGivens 1) (start [] 0)).errcode = 0x2905 := by decide +kernel
/-- XF10, one value on each side of the two clamps and of a half. -/
theorem test_round16 : (round16 0x3F000000, round16 0xBF000000, round16 0x3FBEB852, round16 0xBFC00000, round16 0x46FFFECD,
    round16 0xC7000080, round16 0x7F800000) = (1, 0xFFFF, 1, 0xFFFE, 0x7FFF, 0x8000, 0x7FFF) := by decide +kernel
/-- Ties to even, a subnormal sum and an overflow to infinity (R441). -/
theorem test_float_rounding : (fAdd 0x4B800000 0x3F800000, fAdd 0x4B800001 0x3F800000, fMul 0x00800000 0x3F000000,
    fMul 0x7F000000 0x40000000, fSub 0x3F800000 0x3F800000) = (0x4B800000, 0x4B800002, 0x00400000, 0x7F800000, 0) := by
  decide +kernel
/-- SYS2 and SYS10 through the window. -/
theorem test_status_and_ovr : let s := ({ start [] 0 with irqen := 2 }).store 0x18 .word 0
    s.ovr = true ∧ (after .nop s).irq = true ∧ ((after .nop s).store 0x08 .word 2).irq = false := by decide +kernel

/-! ## A state and operands for every statement with hypotheses, each clause at a boundary of its range

`witness_<statement>` meets the hypotheses of `Obligations.<statement>`. -/

/-! ### Encoding, steps, the host's side -/

theorem witness_EncodeOfDecode : decode 0x1200003F = .ok (.brGetbits 63) := by decide

theorem witness_StepRunsDecodedCommand : ∃ s : State, s.busy = true ∧ decode s.cmd = .ok (.xfRestore 12) ∧ s.turns = [] :=
  ⟨{ start [] 0 with cmd := 0x9A00000C }, by decide +kernel⟩

theorem witness_StepRunsDecodedCommand_turn :
    ∃ s : State, s.busy = true ∧ decode s.cmd = .ok .nop ∧ s.turns = .engine :: [.host] :=
  ⟨{ start [] 0 with turns := [.engine, .host] }, by decide +kernel⟩

theorem illegal_word (i : Instr) : encode i ≠ 0x00000001 := by
  cases i <;> first | decide | (rename_i x; revert x; decide)

theorem witness_IllegalCommandAborts : ∃ s : State, s.busy = true ∧ s.turns = [] ∧ ∀ i, encode i ≠ s.cmd :=
  ⟨{ start [] 0 with cmd := 0x00000001 }, rfl, rfl, illegal_word⟩

theorem witness_IllegalCommandAborts_reserved : 10 * 2 ^ 28 ≤ (0xA0000000 : Word).toNat
    ∧ (0x12000040 : Word).toNat / 64 % 2 ^ 18 ≠ 0 := by decide

theorem witness_StepRunsDecodedCommand_host : ∃ s t u : State,
    (s.host = .hwReset :: [] ∧ s.turns = [] ∧ s.busy = false) ∧ (t.host = .hwReset :: [] ∧ t.turns = .host :: [])
      ∧ u.turns = [] ∧ u.busy = false ∧ u.host = [] :=
  ⟨{ State.reset with host := [.hwReset] }, { start [] 0 with host := [.hwReset], turns := [.host] }, State.reset,
    by decide +kernel⟩

theorem witness_CmdWriteIssuesOrOverruns : ∃ s u : State, s.busy = true ∧ u.busy = false ∧ exec .nop s = .next (after .nop s) :=
  ⟨start [] 0, State.reset, rfl, rfl, exec_after _ _⟩

theorem witness_NarrowOrUnalignedAccessIgnored : Width.half ≠ .word ∧ (0x41 : BitVec 8).toNat % 4 ≠ 0 := by decide

theorem witness_RegisterWindow : State.reset.busy = false ∧ ((0x24 : BitVec 8) ≤ 0x24 ∧ (0x24 : BitVec 8) < 0x40)
    ∧ ((0x24 : BitVec 8) ≤ 0x3F ∧ (0x3F : BitVec 8) < 0x40) ∧ (0xBC : BitVec 8) ≤ 0xBC ∧ (0xBC : BitVec 8) ≤ 0xFF
    ∧ (0x80 : BitVec 8) ≤ 0x80 := by decide

theorem witness_ResetValues : ∃ s t u : State, t = State.reset ∧ u = s.hwReset := ⟨start [1] 0, _, _, rfl, rfl⟩

theorem witness_SoftResetPreservesBuf : (0x00000001 : Word).getLsbD 0 = true ∧ (0xFFFFFFFE : Word).getLsbD 0 = false := by decide

theorem witness_HostBufAccess : State.reset.busy = false ∧ (0x00FFFFFC : Word).toNat + Width.word.bytes ≤ State.reset.cfg.bufSize
    ∧ State.reset.cfg.bufSize < (0x00FFFFFD : Word).toNat + Width.word.bytes := by decide +kernel

theorem witness_RacedCommandOutputIsFree : (start [] 0).busy = true
    ∧ (∀ off ∈ ([0x40, 0x68, 0x70, 0x78] : List (BitVec 8)), off.toNat % 4 = 0
      ∧ ((0x40 ≤ off ∧ off < 0x6C) ∨ (0x70 ≤ off ∧ off < 0x7C)))
    ∧ (0x00FFFFFF : Word).toNat + Width.byte.bytes ≤ (start [] 0).cfg.bufSize := by decide +kernel

theorem witness_RacedCommandOutputIsFree_raced : ∃ s t : State, exec .brGetbit s = .next t ∧ s.tainted = true ∧ s.err = false
    ∧ t.err = false :=
  ⟨{ start [0x80] 0 with tainted := true }, _, exec_after _ _, by decide +kernel⟩

theorem witness_RacedCommandOutputIsFree_overlap : ∃ s t : State, exec (.lzDecompress 1) s = .next t ∧ s.spansOverlap = true
    ∧ s.err = false ∧ t.err = false :=
  ⟨{ start [0xFF, 0xFF] 0 with dst := ⟨0x100, 1, 0⟩ }, _, exec_after _ _, by decide +kernel⟩

theorem witness_RacedCommandOutputIsFree_reads : (start [] 0).busy = true
    ∧ (0x00FFFFFC : Word).toNat + Width.word.bytes ≤ (start [] 0).cfg.bufSize ∧ regAt 0x0C = some .errcode
    ∧ regAt 0x10 = some .errinfo ∧ regAt 0x1C = some .result ∧ regAt 0x20 = some .result1 ∧ regAt 0x80 = some .unitstat
    ∧ regAt 0xB8 = some .nekoKeyHi ∧ regAt 0x08 = some .status ∧ regAt 0x14 = some .irqen ∧ regAt 0x18 = some .cmd
    ∧ regAt 0x40 = some (.arg 0) ∧ regAt 0x78 = some .dstPos := by decide +kernel

/-! ### Errors and frames -/

theorem witness_PreCheckErrorLeavesState : ∃ s t : State, s.err = false ∧ exec (.srstUnit 10) s = .next t ∧ t.err = true
    ∧ t.errcode.toNat % 256 ∈ [3, 5, 6, 10] :=
  ⟨start [] 0, _, rfl, exec_after _ _, by decide +kernel⟩

theorem witness_UnreadyUnitIsRefused : State.reset.qs.valid = false ∧ State.reset.rc.st ≠ .decoding
    ∧ State.reset.huf.valid = false ∧ State.reset.lz.valid = false ∧ State.reset.lz.w ≠ 4096 ∧ State.reset.cam.keyed = false
    ∧ State.reset.neko.keyed = false := by decide +kernel

/-- Every unit ready, operands that GOL_DECODE accepts, the source cursor at bit `pos` and the destination cursor at `out`. -/
def ready (pos out : Word) : State :=
  { start [1] 0 with
    src := ⟨0x100, 1, pos⟩
    dst := ⟨0x00FFFFFF, 1, out⟩
    args := #v[1, 1, 0, 0, 0, 0, 0, 0]
    rc := ⟨0, 1, 0, 0, .decoding⟩
    qs := { State.reset.qs with valid := true }
    huf := { State.reset.huf with valid := true }
    lz := ⟨true, blankStore 0, 0, 4096, 0⟩ }

theorem witness_BadSpanOrOperandIsRefused :
    (∃ s : State, s.srcInBounds = false ∧ s.rc.st = .decoding ∧ s.qs.valid = true ∧ s.huf.valid = true ∧ s.lz.valid = true
      ∧ s.lz.w = 4096 ∧ s.arg 0 ≠ 0 ∧ s.arg 1 ≠ 0)
    ∧ (∃ s : State, s.srcInBounds = true ∧ s.dstInBounds = false ∧ s.qs.valid = true ∧ s.lz.valid = true ∧ s.lz.w = 4096
      ∧ s.arg 0 ≠ 0 ∧ s.arg 1 ≠ 0)
    ∧ (∃ s : State, s.srcInBounds = true ∧ s.dstInBounds = true ∧ s.arg 0 ≠ 0 ∧ s.arg 1 ≠ 0
      ∧ s.dst.len.toNat ≤ s.dst.pos.toNat + ((s.arg 0).toNat - 1) * (s.arg 1).toNat)
    ∧ (1 ≤ (16 : BitVec 5).toNat ∧ (16 : BitVec 5).toNat ≤ 16 ∧ 16 < (17 : BitVec 5).toNat)
    ∧ (∃ s : State, s.arg 0 ≠ 0 ∧ s.arg 1 = 0) ∧ ∃ s : State, s.qs.valid = true ∧ 256 < (s.arg 0).toNat :=
  ⟨⟨ready 9 1, by decide +kernel⟩, ⟨ready 8 2, by decide +kernel⟩, ⟨ready 8 1, by decide +kernel⟩, by decide, ⟨args State.reset 1 0 0 0, by decide +kernel⟩,
    ⟨args (ready 8 1) 257 0 0 0, by decide +kernel⟩⟩

theorem witness_ErrorIsConfined : ∃ s t : State, s.err = false ∧ exec .rcStart s = .next t ∧ t.err = true :=
  ⟨start [1] 0, _, rfl, exec_after _ _, by decide +kernel⟩

theorem witness_ErrorIsConfined_execution : ∃ s t : State, s.err = false ∧ exec (.lzDecompress 1) s = .next t ∧ t.err = true
    ∧ t.errcode.toNat % 256 ∈ [1, 2, 7] :=
  ⟨start [0xFF] 0, _, rfl, exec_after _ _, by decide +kernel⟩

theorem witness_FrameOfNonStoringCommands : ∃ s t : State, exec .qsReset s = .next t ∧ storing .qsReset = false
    ∧ movesSource .qsReset = false ∧ namesResult .qsReset = false ∧ namesResult1 .qsReset = false ∧ s.err = false
    ∧ t.err = false :=
  ⟨{ start [] 0 with qs := { State.reset.qs with valid := true } }, _, exec_after _ _, by decide +kernel⟩

theorem witness_FrameOfOtherUnits : ∃ s t : State, (∀ u, Instr.rcDecode ≠ .srstUnit u) ∧ exec .rcDecode s = .next t :=
  ⟨start [] 0, _, (by intro u h; cases h), exec_after _ _⟩

theorem witness_FrameOfStores : ∃ s t u v : State, exec (.lzDecompress 1) s = .next t ∧ s.err = false
    ∧ t.err = false ∧ exec .golDecode u = .next v :=
  ⟨{ start [0xFF, 0xFF] 0 with dst := ⟨0x200, 1, 0⟩ }, _, start [] 0, _, exec_after _ _, by decide +kernel, by decide +kernel,
    exec_after _ _⟩

theorem witness_FrameOfStores_direct : ∃ s t1 t2 t3 t4 t5 t6 : State, exec .camDecblk s = .next t1 ∧ exec .camDecrange s = .next t2
    ∧ exec .nekoDecrypt s = .next t3 ∧ exec (.xfStoref 2) s = .next t4 ∧ exec (.xfStore16 2) s = .next t5
    ∧ exec (.xfRestore 2) s = .next t6 :=
  ⟨{ start [] 0 with
      args := #v[0x100, 2, 0x100, 16, 0x100, 0, 0, 16], cam := ⟨true, 0, 0⟩, neko := ⟨true, 0⟩ }, _, _, _, _, _, _,
    exec_after _ _, exec_after _ _, exec_after _ _, exec_after _ _, exec_after _ _, exec_after _ _⟩

/-! ### Units 0 and 1 -/

theorem witness_UncheckedCommandsAndSrstUnit : ∃ (s : State) (k : BitVec 128), k = s.arg 0 ++ s.arg 1 ++ s.arg 2 ++ s.arg 3 :=
  ⟨start [] 0, _, rfl⟩

theorem witness_UncheckedCommandsAndSrstUnit_srst : ((9 : BitVec 4).toNat ≤ 9 ∨ (9 : BitVec 4).toNat = 15)
    ∧ ((15 : BitVec 4).toNat ≤ 9 ∨ (15 : BitVec 4).toNat = 15) ∧ (10 ≤ (10 : BitVec 4).toNat ∧ (10 : BitVec 4).toNat ≤ 14)
    ∧ (10 ≤ (14 : BitVec 4).toNat ∧ (14 : BitVec 4).toNat ≤ 14) := by decide

theorem witness_BrReadsBits :
    ((32 : BitVec 6).toNat ≤ 32 ∧ (start [1, 2, 3, 4] 0).srcInBounds = true
      ∧ (start [1, 2, 3, 4] 0).src.pos.toNat + (32 : BitVec 6).toNat ≤ 8 * (start [1, 2, 3, 4] 0).src.len.toNat)
    ∧ 8 * (start [1, 2, 3, 4] 1).src.len.toNat < (start [1, 2, 3, 4] 1).src.pos.toNat + (32 : BitVec 6).toNat
    ∧ { start [] 0 with src := ⟨0x00FFFFF0, 0x11, 0⟩ }.srcInBounds = false ∧ 32 < (33 : BitVec 6).toNat
    ∧ (start [1] 7).src.pos.toNat < 8 * (start [1] 7).src.len.toNat
    ∧ (start [1] 8).srcInBounds = true ∧ (start [1] 8).src.pos.toNat = 8 * (start [1] 8).src.len.toNat := by decide +kernel

theorem witness_BrReadsBits_peek : ((32 : BitVec 6).toNat ≤ 32 ∧ (start [1] 7).srcInBounds = true)
    ∧ { start [] 0 with src := ⟨0x00FFFFF0, 0x11, 0⟩ }.srcInBounds = false ∧ 32 < (33 : BitVec 6).toNat
    ∧ (start [1] 8).srcInBounds = true ∧ (start [1] 9).srcInBounds = false := by decide +kernel

/-! ### Units 2 and 3 -/

theorem witness_RcStartPrimes : ∃ s : State, s.srcInBounds = true ∧ s.holdsBytes s.nextByte [7, 0x80] :=
  ⟨start [9, 7, 0x80] 1, by unfold State.holdsBytes; decide +kernel⟩

/-- One byte ends the loop and one is there; none is needed at the end of the source. -/
theorem witness_RcNormalizeAndCulshift : ∃ s u : State,
    (s.rc.st = .decoding ∧ s.srcInBounds = true ∧ s.rc.range ≠ 0 ∧ rcNeed s.rcCfg (s.rcAfter 1) = false
      ∧ (∀ m < 1, rcNeed s.rcCfg (s.rcAfter m) = true) ∧ s.nextByte + 1 = s.src.len.toNat)
    ∧ (u.rc.st = .decoding ∧ u.srcInBounds = true ∧ rcNeed u.rcCfg (u.rcAfter 0) = false
      ∧ u.nextByte + 0 = u.src.len.toNat) ∧ 1 ≤ (1 : BitVec 5).toNat ∧ (16 : BitVec 5).toNat ≤ 16 :=
  ⟨{ start [1, 2] 8 with rc := ⟨0, 0x10000, 0, 0, .decoding⟩ }, { start [1] 7 with rc := ⟨0, 0x1000000, 0, 0, .decoding⟩ },
    by decide +kernel⟩

theorem witness_RcNormalizeAndCulshift_zero : ∃ s : State, s.rc.st = .decoding ∧ s.srcInBounds = true ∧ s.rc.range = 0 :=
  ⟨{ start [1, 2] 8 with rc := ⟨0, 0, 0, 0, .decoding⟩ }, by decide +kernel⟩

theorem witness_RcUpdateNarrows :
    (start [] 0).rc.st ≠ .decoding
    ∧ (∃ s : State, s.rc.st = .decoding ∧ s.arg 0 = 0) ∧ (∃ s : State, s.rc.st = .decoding ∧ 65536 < (s.arg 2).toNat)
    ∧ (∃ s : State, s.rc.st = .decoding ∧ (s.arg 2).toNat < (s.arg 1).toNat + (s.arg 0).toNat)
    ∧ ∃ s : State, s.rc.st = .decoding ∧ s.arg 0 ≠ 0 ∧ (s.arg 2).toNat ≤ 65536
      ∧ (s.arg 1).toNat + (s.arg 0).toNat ≤ (s.arg 2).toNat :=
  ⟨by decide, ⟨args rcStarted 0 0 1 0, by decide +kernel⟩, ⟨args rcStarted 1 0 65537 0, by decide +kernel⟩,
    ⟨args rcStarted 1 0xFFFFFFFF 65536 0, by decide +kernel⟩, ⟨args rcStarted 1 65535 65536 0, by decide +kernel⟩⟩

/-- A model for the total 512, frequencies 2 but for the last two symbols. -/
def model (newf : Store 16) (left : BitVec 16) : Qs where
  valid := true
  cf := ⟨.known 0, (List.range 258).map (fun i => (i, BitVec.ofNat 16 (i + min i 255)))⟩
  newf := newf
  search := ⟨.known 256, (List.range 128).map (fun i => (i, BitVec.ofNat 16 (2 * i)))⟩
  lgTotf := 9
  shift := 2
  target := 255
  rescale := 255
  incr := 1
  left := left
  nextleft := 0

/-- The model with 255 symbols left to count. -/
def modelCounting : Qs := model (blankStore 1) 255

/-- The model with every symbol counted. -/
def modelFull : Qs := model ⟨.known 2, [(255, 1), (256, 1)]⟩ 0

theorem model_rises : ∀ i ≤ 256, (modelFull.cf.get i).toNat < (modelFull.cf.get (i + 1)).toNat := by decide +kernel

theorem model_bucket : ∀ b < 128, (modelFull.search.get b).toNat ≤ 256
    ∧ (modelFull.cf.get (modelFull.search.get b).toNat).toNat ≤ b * 2 ^ modelFull.shift.toNat
    ∧ b * 2 ^ modelFull.shift.toNat < (modelFull.cf.get ((modelFull.search.get b).toNat + 1)).toNat := by decide +kernel

theorem modelCounting_good : modelCounting.Good where
  total_range := by decide
  shift_eq := by decide
  target_pos := by decide
  first := by decide +kernel
  last := by decide +kernel
  rises := model_rises
  counted := fun _ _ => Nat.le_refl 1
  rescale_range := by decide
  conserved := by decide +kernel
  bucket_end := by decide +kernel
  bucket := model_bucket

theorem modelFull_good : modelFull.Good where
  total_range := by decide
  shift_eq := by decide
  target_pos := by decide
  first := by decide +kernel
  last := by decide +kernel
  rises := model_rises
  counted := by decide +kernel
  rescale_range := by decide
  conserved := by decide +kernel
  bucket_end := by decide +kernel
  bucket := model_bucket

/-- A state with the model in use. -/
def withModel (q : Qs) (s : State) : State := { s with qs := q }

/-- 41_range_coder.md R223, R224: target 510 lies in symbol 255's interval, whose frequency is 1. -/
theorem test_qs_getsym_getfreq : (after .qsGetsym (withModel modelCounting (args (start [] 0) 510 0 0 0))).result = 255
    ∧ (after .qsGetfreq (withModel modelCounting (args (start [] 0) 255 0 0 0))).result = 1
    ∧ (after .qsGetfreq (withModel modelCounting (args (start [] 0) 255 0 0 0))).result1 = 510 := by decide +kernel

/-- R225. -/
theorem test_qs_update : let t := after .qsUpdate (withModel modelCounting (args (start [] 0) 256 0 0 0))
    t.qs.left = 254 ∧ entries t.qs.newf [255, 256] = [1, 2] := by decide +kernel

/-- `modelCounting` after a reset: 255 counts are missing to 512, 7 for each of 33 symbols and 8 for each of 3. -/
def modelReset : Qs := { modelCounting with rescale := 36, incr := 7, nextleft := 3, left := 33 }

theorem restart_newf : (qsRestart modelCounting).newf = modelReset.newf := by decide +kernel

theorem restart_cf : (qsRestart modelCounting).cf = modelReset.cf := by decide +kernel

theorem restart_counts : (qsRestart modelCounting).incr = 7 ∧ (qsRestart modelCounting).nextleft = 3
    ∧ (qsRestart modelCounting).left = 33 := by decide +kernel

/-- The bucket of target `4 j` is symbol `2 j`. -/
theorem model_buckets : ∀ j < 128, bucketAt (fun i => (i + min i 255) / 4) (fun i => (i + min (i + 1) 255) / 4) j 257
    (BitVec.ofNat 16 (2 * j)) = BitVec.ofNat 16 (2 * j) := by decide +kernel

theorem model_search : ∀ j < 128, modelCounting.search.get j = BitVec.ofNat 16 (2 * j) := by decide +kernel

theorem model_lo : ∀ i < 257, (modelCounting.cf.get i).toNat >>> 2 = (i + min i 255) / 4 := by decide +kernel

theorem model_hi : ∀ i < 257, (modelCounting.cf.get (i + 1) - 1).toNat >>> 2 = (i + min (i + 1) 255) / 4 := by decide +kernel

theorem restart_search : bucketsFrom modelCounting.cf 2 257 modelCounting.search = modelCounting.search := by
  have hwf : modelCounting.search.wf = true := by decide +kernel
  refine Store.ext_known (d := 256) (bucketsFrom_wf _ _ _ hwf) hwf (bucketsFrom_rest _ _ _ _) rfl (fun j => ?_)
  rw [bucketsFrom_get, bucketAt_congr model_lo model_hi]
  by_cases hj : j < 128
  · rw [model_search j hj, model_buckets j hj]
  · exact bucketAt_out (fun i hi => by omega)

theorem restart_eq : qsRestart modelCounting = modelReset := by
  obtain ⟨hv, hl, hsh, ht, hr, hs⟩ := qsRestart_fields modelCounting
  rw [restart_cf] at hs
  obtain ⟨hi, hn, hc⟩ := restart_counts
  have hcf := restart_cf
  have hnf := restart_newf
  generalize qsRestart modelCounting = q at *
  obtain ⟨v, cf, newf, search, lg, sh, tg, re, incr, left, nl⟩ := q
  cases hv; cases hl; cases hsh; cases ht; cases hr; cases hi; cases hn; cases hc; cases hcf; cases hnf
  exact congrArg (fun b => { modelReset with search := b }) (hs.trans restart_search)

theorem reset_run {s : State} (h : s.qs = modelCounting) : s.run .qsReset = { s with qs := modelReset }.complete := by
  have hc : s.requireReady s.qs.valid = .ok () := by rw [h]; rfl
  have he : exec .qsReset s = .next ({ s with qs := qsRestart s.qs }.complete) :=
    runCommand_complete (after := s) hc rfl
  simp only [State.run, he, h, restart_eq]

/-- A stream decoded with `modelCounting` into `room` bytes. -/
def decoding (bytes : List Nat) (room : Word) : State :=
  withModel modelCounting { start bytes 0 with dst := ⟨0x200, room, 0⟩ }

/-- The state in which the first turn finds it. -/
def primed (bytes : List Nat) (room : Word) : State :=
  { (decoding bytes room).run .rcStart with qs := modelReset }.complete

theorem witness_RcDecodeRunsItsPrimitives_terminal : ∃ s u : State, s.calm ∧ s.err = false ∧ s.qs.valid = true ∧ s.qs.Good
    ∧ s.srcInBounds = true ∧ s.dstInBounds = true ∧ s.dst.pos ≠ s.dst.len
    ∧ ([] : List Byte).length ≤ s.dst.len.toNat - s.dst.pos.toNat ∧ ((s.run .rcStart).run .qsReset).rcReads [] u
    ∧ u.err = false ∧ u.rcTurn.1 = 256 ∧ u.rcTurn.2.err = false :=
  ⟨decoding [7, 0xFF, 0xFF, 0xFF, 0xFF] 1, primed [7, 0xFF, 0xFF, 0xFF, 0xFF] 1, by unfold State.calm; decide +kernel, rfl, rfl,
    modelCounting_good, by decide +kernel, by decide +kernel, by decide +kernel, by decide +kernel, (reset_run rfl).symm,
    by decide +kernel, by decide +kernel, by decide +kernel⟩

/-- The state after a zero byte of a stream of zeros, counted. -/
def zerosRead : State := ((primed [7, 0, 0, 0, 0, 0, 0] 1).rcTurn.2.withArgs ((0 : Byte).setWidth 32) 0 0).run .qsUpdate

theorem zeros_read : (((decoding [7, 0, 0, 0, 0, 0, 0] 1).run .rcStart).run .qsReset).rcReads [0] zerosRead := by
  rw [reset_run (s := (decoding [7, 0, 0, 0, 0, 0, 0] 1).run .rcStart) rfl]
  exact ⟨show (primed [7, 0, 0, 0, 0, 0, 0] 1).rcTurn.1 = (0 : Byte).setWidth 32 by decide +kernel, rfl⟩

theorem witness_RcDecodeRunsItsPrimitives_full : ∃ s u : State, s.calm ∧ s.err = false ∧ s.qs.valid = true ∧ s.qs.Good
    ∧ s.srcInBounds = true ∧ s.dstInBounds = true ∧ s.dst.pos ≠ s.dst.len
    ∧ [(0 : Byte)].length = s.dst.len.toNat - s.dst.pos.toNat ∧ ((s.run .rcStart).run .qsReset).rcReads [0] u
    ∧ u.err = false ∧ u.rcTurn.1 ≠ 256 ∧ u.rcTurn.2.err = false :=
  ⟨decoding [7, 0, 0, 0, 0, 0, 0] 1, zerosRead, by unfold State.calm; decide +kernel, rfl, rfl, modelCounting_good,
    by decide +kernel, by decide +kernel, by decide +kernel, by decide +kernel, zeros_read, by decide +kernel, by decide +kernel,
    by decide +kernel⟩

theorem witness_RcDecodeRunsItsPrimitives_short : ∃ s u : State, s.calm ∧ s.err = false ∧ s.qs.valid = true ∧ s.qs.Good
    ∧ s.srcInBounds = true ∧ s.dstInBounds = true ∧ s.dst.pos ≠ s.dst.len
    ∧ ([] : List Byte).length ≤ s.dst.len.toNat - s.dst.pos.toNat ∧ ((s.run .rcStart).run .qsReset).rcReads [] u
    ∧ u.err = false ∧ u.culshiftRun.err = true :=
  ⟨decoding [7, 0xFF] 1, primed [7, 0xFF] 1, by unfold State.calm; decide +kernel, rfl, rfl,
    modelCounting_good, by decide +kernel, by decide +kernel, by decide +kernel, by decide +kernel, (reset_run rfl).symm,
    by decide +kernel, by decide +kernel⟩

theorem witness_RcDecodeRunsItsPrimitives : ∃ s : State, s.calm ∧ s.qs.valid = true ∧ s.qs.Good ∧ s.srcInBounds = true
    ∧ s.dstInBounds = true ∧ s.dst.pos ≠ s.dst.len ∧ s.holdsBytes s.nextByte [7, 0xFF, 0xFF, 0xFF, 0xFF] :=
  ⟨withModel modelCounting (start [7, 0xFF, 0xFF, 0xFF, 0xFF] 0), by unfold State.calm; decide +kernel, rfl, modelCounting_good,
    by decide +kernel, by decide +kernel, by decide +kernel, by unfold State.holdsBytes; decide +kernel⟩

theorem witness_RcDecodeRunsItsPrimitives_noRoom : ∃ s : State, s.calm ∧ s.qs.valid = true ∧ s.srcInBounds = true
    ∧ s.dstInBounds = true ∧ s.dst.pos = s.dst.len :=
  ⟨{ withModel modelCounting (start [] 0) with dst := ⟨0x200, 4, 4⟩ }, by unfold State.calm; decide +kernel⟩

theorem witness_QsInitAndResetBuildModel : (9 ≤ (9 : BitVec 4).toNat ∧ 1 ≤ ((args State.reset 65535 0 0 0).arg 0).toNat
      ∧ ((args State.reset 65535 0 0 0).arg 0).toNat ≤ 65535)
    ∧ (8 : BitVec 4).toNat < 9 ∧ (args State.reset 0 0 0 0).arg 0 = 0
    ∧ 65535 < ((args State.reset 65536 0 0 0).arg 0).toNat ∧ ∃ s : State, s.qs.valid = true ∧ s.qs.Good :=
  ⟨by decide +kernel, by decide, by decide +kernel, by decide +kernel, withModel modelFull State.reset, rfl, modelFull_good⟩

theorem witness_QsGetsymFindsInterval : ∃ s u : State, s.qs.valid = true ∧ s.qs.Good
    ∧ (s.arg 0).toNat < 2 ^ s.qs.lgTotf.toNat ∧ u.qs.valid = true ∧ (u.qs.cf.get 257).toNat ≤ (u.arg 0).toNat
    ∧ State.reset.qs.valid = false :=
  ⟨withModel modelFull (args State.reset 511 0 0 0), withModel modelFull (args State.reset 512 0 0 0), rfl, modelFull_good,
    by decide +kernel⟩

theorem witness_QsGetfreqAndUpdate : ∃ s u v : State,
    (s.qs.valid = true ∧ (s.arg 0).toNat ≤ 256 ∧ s.qs.left ≠ 0)
    ∧ (u.qs.valid = true ∧ (u.arg 0).toNat ≤ 256 ∧ u.qs.left = 0 ∧ u.qs.nextleft ≠ 0)
    ∧ v.qs.valid = true ∧ (v.arg 0).toNat ≤ 256 ∧ v.qs.left = 0 ∧ v.qs.nextleft = 0 ∧ v.qs.Good :=
  ⟨withModel modelCounting (args State.reset 256 0 0 0),
    withModel { modelFull with nextleft := 1 } (args State.reset 256 0 0 0),
    withModel modelFull (args State.reset 256 0 0 0), by decide +kernel, by decide +kernel, rfl, by decide +kernel, rfl, rfl,
    modelFull_good⟩

/-! ### Units 4 and 5 -/

/-- A tree of the literal 0x41 and the escape. -/
def twoLeaves : Tree := emptyTree.addNewEntry 0x41

/-- A state with this tree in every context. -/
def withTree (t : Tree) (s : State) : State := { s with huf := ⟨true, false, 0, Vector.replicate 256 t⟩ }

theorem witness_HufInitAndSetctx : ∃ s : State, s.huf.valid = true ∧ (s.arg 0).toNat ≤ 255 :=
  ⟨withTree emptyTree (args State.reset 255 0 0 0), by decide +kernel⟩

theorem witness_HufInitAndSetctx_refused : ∃ s : State, s.huf.valid = true ∧ 255 < (s.arg 0).toNat
    ∧ State.reset.huf.valid = false :=
  ⟨withTree emptyTree (args State.reset 256 0 0 0), by decide +kernel⟩

theorem witness_HufFirstCodeIsLiteral : ∃ (s : State) (k : Fin 256) (v : Byte), s.huf.valid = true ∧ s.srcInBounds = true
    ∧ k.val = (if s.huf.order1 then s.huf.last.toNat else 0) ∧ s.huf.trees[k] = emptyTree
    ∧ s.src.pos.toNat + 8 ≤ 8 * s.src.len.toNat ∧ s.srcField s.src.pos.toNat 8 = v.toNat :=
  ⟨withTree emptyTree (start [0x41] 0), 0, 0x41, by decide +kernel⟩

theorem witness_HufCodeFollowsPath : ∃ (s : State) (k : Fin 256), s.huf.valid = true ∧ s.srcInBounds = true
    ∧ k.val = (if s.huf.order1 then s.huf.last.toNat else 0) ∧ s.huf.trees[k].esc ≠ 0x8000
    ∧ hufPath s.huf.trees[k].c (s.huf.trees[k].c.get 0x200) [0] 0x1FE ∧ s.holdsBits s.src.pos.toNat [0]
    ∧ s.huf.trees[k].c.get 0x1FE ≠ 0xFFFFFFFF :=
  ⟨withTree twoLeaves (start [0x00] 7), 0, by unfold State.holdsBits hufPath; rw [if_pos rfl]; decide +kernel⟩

theorem witness_HufCodeFollowsPath_escape : ∃ (s : State) (k : Fin 256) (v : Byte), s.huf.valid = true ∧ s.srcInBounds = true
    ∧ k.val = (if s.huf.order1 then s.huf.last.toNat else 0) ∧ s.huf.trees[k].esc ≠ 0x8000
    ∧ hufPath s.huf.trees[k].c (s.huf.trees[k].c.get 0x200) [1] 0x1FF ∧ s.holdsBits s.src.pos.toNat [1]
    ∧ s.huf.trees[k].c.get 0x1FF = 0xFFFFFFFF ∧ s.src.pos.toNat + [1].length + 8 ≤ 8 * s.src.len.toNat
    ∧ s.srcField (s.src.pos.toNat + [1].length) 8 = v.toNat :=
  ⟨withTree twoLeaves (start [0x01, 0x42] 7), 0, 0x42, by
    unfold State.holdsBits hufPath; rw [if_pos rfl]; decide +kernel⟩

/-- A tree of two leaves with these weights in place of its own. -/
def weighted (a b : BitVec 16) : Tree := { twoLeaves with w := ⟨.known 0, [(0x1FE, a), (0x1FF, b), (0x200, a + b)]⟩ }

/-- The nodes in use of a tree of two leaves. -/
theorem two_nodes {q : Nat} (h : 0x1FE ≤ q) (hq : q < 0x200) : q = 0x1FE ∨ q = 0x1FF := by omega

theorem weighted_filled (a b : BitVec 16) (ha : 1 ≤ a.toNat) (hab : a.toNat ≤ b.toNat) (hs : a.toNat + b.toNat ≤ 0x4000) :
    (weighted a b).Filled := by
  have hab' : (a + b).toNat = a.toNat + b.toNat := by rw [BitVec.toNat_add]; omega
  have hw : (weighted a b).weight 0x1FE = a.toNat ∧ (weighted a b).weight 0x1FF = b.toNat
      ∧ (weighted a b).weight 0x200 = a.toNat + b.toNat := ⟨rfl, rfl, hab'⟩
  have htp : (weighted a b).tp.toNat = 0x1FE := rfl
  have hesc : (weighted a b).esc.toNat = 0x1FF := rfl
  have hroot : (weighted a b).child 0x200 = 0x1FE := rfl
  have hroot' : (twoLeaves.c.get 0x200).msb = false := by decide +kernel
  have hp : ∀ i, i = 0x1FE ∨ i = 0x1FF → i < (twoLeaves.p.get i).toNat ∧ (twoLeaves.p.get i).toNat ≤ 0x200
      ∧ (twoLeaves.c.get (twoLeaves.p.get i).toNat).msb = false ∧ twoLeaves.child (twoLeaves.p.get i).toNat = i - i % 2 := by
    rintro i (rfl | rfl) <;> decide +kernel
  have hq : ∀ q, q = 0x1FE ∨ q = 0x1FF → (twoLeaves.c.get q).msb = true := by rintro q (rfl | rfl) <;> decide +kernel
  constructor <;> try rw [htp]
  · decide
  · exact hroot'
  · intro q h hq _
    obtain rfl | rfl := two_nodes h hq
    · exact .inr ⟨0x41, show twoLeaves.c.get 0x1FE = leafCode 0x41 by decide +kernel⟩
    · exact .inl (show twoLeaves.c.get 0x1FF = hufEscape by decide +kernel)
  · intro q h hle hm
    obtain hlt | rfl : q < 0x200 ∨ q = 0x200 := by change q ≤ 0x200 at hle; omega
    · exact absurd (hq q (two_nodes h hlt)) (by change (twoLeaves.c.get q).msb = false at hm; simp [hm])
    · rw [hroot, hw.1, hw.2.2, hw.2.1]
      exact ⟨by decide, by decide, by decide, rfl,
        show (twoLeaves.p.get 0x1FE).toNat = 0x200 by decide +kernel, show (twoLeaves.p.get 0x1FF).toNat = 0x200 by decide +kernel⟩
  · exact fun i h hi => hp i (two_nodes h hi)
  · rw [hw.1]; exact ha
  · intro i h hi
    obtain rfl | rfl := two_nodes h hi
    · rw [hw.1, hw.2.1]; exact hab
    · rw [hw.2.1, hw.2.2]; omega
  · exact hw.2.2.trans_le hs
  · rw [hesc]; exact ⟨by decide, by decide, show twoLeaves.c.get 0x1FF = hufEscape by decide +kernel⟩
  · intro i h hi hc
    obtain rfl | rfl := two_nodes h hi
    · exact absurd hc (show ¬ twoLeaves.c.get 0x1FE = hufEscape by decide +kernel)
    · exact hesc.symm

/-- A full tree, laid out as a heap: node `q` is `512 - q` places below the root, the escape is the lowest leaf. -/
def fullTree : Tree where
  w := (blankStore 0).setSpan 0 513 (fun q => BitVec.ofNat 16
    (if q ≤ 1 then 1 else 2 ^ (8 - (513 - q).log2) + if 2 ^ (513 - q).log2 = 513 - q then 1 else 0))
  p := (blankStore 0).setSpan 0 513 (fun q => BitVec.ofNat 16 ((q + 514) / 2))
  c := (blankStore 0).setSpan 0 513 (fun q =>
    if q = 0 then hufEscape else if q ≤ 256 then leafCode (BitVec.ofNat 8 (q - 1)) else BitVec.ofNat 32 (2 * q - 514))
  sym := blankStore 0
  esc := 0
  tp := 0

theorem full_c {q : Nat} (h : q ≤ 512) : fullTree.c.get q =
    if q = 0 then hufEscape else if q ≤ 256 then leafCode (BitVec.ofNat 8 (q - 1)) else BitVec.ofNat 32 (2 * q - 514) := by
  rw [fullTree, Store.get_setSpan, if_pos (by omega)]

theorem full_p {q : Nat} (h : q ≤ 512) : fullTree.p.get q = BitVec.ofNat 16 ((q + 514) / 2) := by
  rw [fullTree, Store.get_setSpan, if_pos (by omega)]

theorem full_w {q : Nat} (h : q ≤ 512) : fullTree.weight q =
    if q ≤ 1 then 1 else 2 ^ (8 - (513 - q).log2) + if 2 ^ (513 - q).log2 = 513 - q then 1 else 0 := by
  have hb : ∀ q ≤ 512, (if q ≤ 1 then 1 else 2 ^ (8 - (513 - q).log2) + if 2 ^ (513 - q).log2 = 513 - q then 1 else 0)
    < 2 ^ 16 := by decide +kernel
  rw [Tree.weight, fullTree, Store.get_setSpan, if_pos (by omega), BitVec.toNat_ofNat, Nat.mod_eq_of_lt (hb q h)]

theorem full_leaf {q : Nat} (h : q ≤ 512) : (fullTree.c.get q).msb = decide (q ≤ 256) := by
  have hb : ∀ q ≤ 512, (if q = 0 then hufEscape else if q ≤ 256 then leafCode (BitVec.ofNat 8 (q - 1))
    else BitVec.ofNat 32 (2 * q - 514)).msb = decide (q ≤ 256) := by decide +kernel
  rw [full_c h, hb q h]

theorem full_child {q : Nat} (h : q ≤ 512) (hq : 256 < q) : fullTree.child q = 2 * q - 514 := by
  rw [Tree.child, full_c h, if_neg (by omega), if_neg (by omega), BitVec.toNat_ofNat]
  exact Nat.mod_eq_of_lt (by omega)

theorem full_sum : ∀ q ≤ 512, 256 < q →
    (if q ≤ 1 then 1 else 2 ^ (8 - (513 - q).log2) + if 2 ^ (513 - q).log2 = 513 - q then 1 else 0)
    = (if 2 * q - 514 ≤ 1 then 1 else 2 ^ (8 - (513 - (2 * q - 514)).log2)
        + if 2 ^ (513 - (2 * q - 514)).log2 = 513 - (2 * q - 514) then 1 else 0)
      + (if 2 * q - 514 + 1 ≤ 1 then 1 else 2 ^ (8 - (513 - (2 * q - 514 + 1)).log2)
        + if 2 ^ (513 - (2 * q - 514 + 1)).log2 = 513 - (2 * q - 514 + 1) then 1 else 0) := by decide +kernel

theorem full_rises : ∀ q < 512,
    (if q ≤ 1 then 1 else 2 ^ (8 - (513 - q).log2) + if 2 ^ (513 - q).log2 = 513 - q then 1 else 0)
    ≤ (if q + 1 ≤ 1 then 1 else 2 ^ (8 - (513 - (q + 1)).log2) + if 2 ^ (513 - (q + 1)).log2 = 513 - (q + 1) then 1 else 0) := by
  decide +kernel

theorem fullTree_filled : fullTree.Filled := by
  have hr : hufRoot = 512 := rfl
  have hp : ∀ q ≤ 512, (fullTree.p.get q).toNat = (q + 514) / 2 := fun q h => by
    rw [full_p h, BitVec.toNat_ofNat]; exact Nat.mod_eq_of_lt (by omega)
  constructor
  · exact ⟨by decide, by decide⟩
  · rw [full_leaf (by decide)]; rfl
  · intro q _ hq hm
    have hq' : q ≤ 512 := by omega
    rw [full_leaf hq', decide_eq_true_eq] at hm
    rw [full_c hq']
    by_cases h0 : q = 0
    · exact .inl (if_pos h0)
    · exact .inr ⟨BitVec.ofNat 8 (q - 1), by rw [if_neg h0, if_pos hm]⟩
  · intro q _ hq hm
    have hq' : q ≤ 512 := hq
    rw [full_leaf hq', decide_eq_false_iff_not] at hm
    rw [full_child hq' (by omega), full_w hq', full_w (by omega), full_w (by omega), hp _ (by omega), hp _ (by omega)]
    exact ⟨Nat.zero_le _, by omega, by omega, full_sum q hq' (by omega), by omega, by omega⟩
  · intro i _ hi
    have hi' : i ≤ 512 := by omega
    rw [hp i hi', full_leaf (by omega), full_child (by omega) (by omega), decide_eq_false_iff_not]
    exact ⟨by omega, by omega, by omega, by omega⟩
  · change 1 ≤ fullTree.weight 0
    rw [full_w (by omega)]; decide
  · intro i _ hi
    rw [full_w (by omega), full_w (by omega)]; exact full_rises i hi
  · rw [full_w (by decide)]; decide +kernel
  · exact ⟨Nat.zero_le _, by decide, full_c (by decide)⟩
  · intro i _ hi hc
    have hb : ∀ q ≤ 512, (if q = 0 then hufEscape else if q ≤ 256 then leafCode (BitVec.ofNat 8 (q - 1))
      else BitVec.ofNat 32 (2 * q - 514)) = hufEscape → q = 0 := by decide +kernel
    exact hb i (by omega) ((full_c (by omega)).symm.trans hc)

theorem witness_TreeOperationsKeepLeaves : ∃ (t u f : Tree) (e : Nat), t.Filled ∧ u.Filled ∧ f.Filled
    ∧ (t.tp.toNat ≤ e ∧ e < 0x200 ∧ (t.c.get e).msb = true ∧ t.weight 0x200 + 1 < 0x4000 ∧ t.tp ≠ 0)
    ∧ (u.tp.toNat ≤ e ∧ (u.c.get e).msb = true ∧ 0x4000 ≤ u.weight 0x200 + 1) ∧ f.tp = 0 :=
  ⟨weighted 1 0x3FFD, weighted 1 0x3FFE, fullTree, 0x1FE, weighted_filled _ _ (by decide) (by decide) (by decide),
    weighted_filled _ _ (by decide) (by decide) (by decide), fullTree_filled, by decide +kernel, by decide +kernel, rfl⟩

/-- After an escape at a root of 0x3FFE the root weighs 0x4000 (log 25): R265 checks 0x3FFF, and R266 adds the new leaf. -/
theorem test_root_reaches_ceiling : (((weighted 1 0x3FFD).increase 0x1FF).addNewEntry 0x42).weight 0x200 = 0x4000 := by
  decide +kernel

theorem witness_GammaCodesDecode : ∃ s u : State, s.srcInBounds = true ∧ u.srcInBounds = true
    ∧ s.holdsBits s.src.pos.toNat (eriCode 1) ∧ u.holdsBits u.src.pos.toNat (runCode u.lsb (2 ^ 32 - 1)) :=
  ⟨start [0x00] 7, start [0, 0, 0, 1, 0xFF, 0xFF, 0xFF, 0xFF] 0, by unfold State.holdsBits; decide +kernel⟩

theorem witness_GolValueDecodesCode : ∃ s u v : State,
    (s.srcInBounds = true ∧ s.gol.a.toNat < 1024 ∧ isGolombLength s.gol.a.toNat s.gol.n 8 ∧ 256 / 2 ^ 8 ≤ 255 ∧ s.lsb = false
      ∧ s.holdsBits s.src.pos.toNat (golombCode s.lsb 8 256))
    ∧ (u.srcInBounds = true ∧ u.gol.a.toNat < 1024 ∧ isGolombLength u.gol.a.toNat u.gol.n 0 ∧ u.lsb = true
      ∧ u.src.pos.toNat % 8 + 31 / 2 ^ 0 < 32 ∧ u.holdsBits u.src.pos.toNat (golombCode u.lsb 0 31))
    ∧ v.srcInBounds = true ∧ isGolombLength v.gol.a.toNat v.gol.n 0 ∧ v.lsb = true
      ∧ (∀ j < 32 - v.src.pos.toNat % 8, v.srcBitAt (v.src.pos.toNat + j) = 0)
      ∧ v.holdsBytes (v.src.pos.toNat / 8 + 4) [BitVec.ofNat 8 (255 / 2 ^ 0)]
      ∧ v.holdsBits (8 * (v.src.pos.toNat / 8 + 5)) (fieldBits true 0 (255 % 2 ^ 0)) :=
  ⟨{ start [0x40, 0x00] 0 with gol := ⟨1023, 0⟩ }, { start [0, 0, 0, 0x80] 0 with lsb := true },
    { start [0, 0, 0, 0, 0xFF] 7 with lsb := true },
    by unfold State.holdsBits isGolombLength; decide +kernel, by unfold State.holdsBits isGolombLength; decide +kernel,
    by unfold State.holdsBits State.holdsBytes isGolombLength; decide +kernel⟩

theorem witness_GolValueDecodesCode_refused : ∃ s u : State, (s.srcInBounds = true ∧ 1024 ≤ s.gol.a.toNat)
    ∧ u.srcInBounds = true ∧ u.gol.a.toNat < 1024 ∧ u.lsb = false ∧ u.holdsBits u.src.pos.toNat (List.replicate 256 0) :=
  ⟨{ start [0] 0 with gol := ⟨1024, 0⟩ }, start (List.replicate 33 0) 1, by decide +kernel,
    by unfold State.holdsBits; decide +kernel⟩

/-- R320's example: a coded run of 2 and -1, a zero run of 1. -/
theorem witness_GolDecodeOfRuns_mixed : ∃ (s : State) (runs : List (List Nat)), s.calm ∧ s.lsb = false ∧ s.srcInBounds = true
    ∧ s.dstInBounds = true ∧ s.arg 0 ≠ 0 ∧ s.arg 1 ≠ 0
    ∧ s.dst.pos.toNat + ((s.arg 0).toNat - 1) * (s.arg 1).toNat < s.dst.len.toNat ∧ golRunsCodable false ⟨0, 3⟩ runs
    ∧ (s.arg 0).toNat = (golRunsBytes false runs).length ∧ golRunsBytes false runs = [0x02, 0xFF, 0x00]
    ∧ s.holdsBits s.src.pos.toNat (1 :: golRunsCode false ⟨0, 3⟩ runs) ∧ golRunsNext false ⟨0, 3⟩ runs = ⟨1, 1⟩ :=
  ⟨args (start [0xA1, 0xC0] 0) 3 1 0 0, [[3, 0], [0]], by
    unfold State.calm State.holdsBits; simp only [golRunsCodable, golCodable]; decide +kernel⟩

theorem witness_GolDecodeOfRuns_passes : ∃ (s : State) (runs : List (List Nat)), s.calm ∧ s.lsb = false ∧ s.srcInBounds = true
    ∧ s.dstInBounds = true ∧ s.arg 0 ≠ 0 ∧ s.arg 1 ≠ 0
    ∧ s.dst.pos.toNat + ((s.arg 0).toNat - 1) * (s.arg 1).toNat < s.dst.len.toNat ∧ golRunsCodable true ⟨0, 3⟩ runs
    ∧ (golRunsBytes true runs).length < (s.arg 0).toNat ∧ (s.arg 0).toNat < (golRunsBytes true runs).length + 2
    ∧ s.holdsBits s.src.pos.toNat (0 :: (golRunsCode true ⟨0, 3⟩ runs ++ runCode false 2)) :=
  ⟨args (start [0x50] 0) 2 1 0 0, [[0]], by
    unfold State.calm State.holdsBits; simp only [golRunsCodable, golCodable]; decide +kernel⟩

theorem witness_GolDecodeOfRuns : ∃ s : State, s.calm ∧ s.srcInBounds = true ∧ s.dstInBounds = true ∧ s.arg 0 ≠ 0 ∧ s.arg 1 ≠ 0
    ∧ s.dst.pos.toNat + ((s.arg 0).toNat - 1) * (s.arg 1).toNat < s.dst.len.toNat
    ∧ s.holdsBits s.src.pos.toNat (0 :: runCode s.lsb (s.arg 0).toNat) :=
  ⟨args (start [0x30] 0) 3 7 0 0, by unfold State.calm State.holdsBits; decide +kernel⟩

theorem witness_GolDecodeOfRuns_coded : ∃ s : State, s.calm ∧ s.srcInBounds = true ∧ s.dstInBounds = true ∧ s.arg 0 = 1
    ∧ s.arg 1 ≠ 0 ∧ s.dst.pos.toNat + ((s.arg 0).toNat - 1) * (s.arg 1).toNat < s.dst.len.toNat ∧ s.lsb = false
    ∧ s.holdsBits s.src.pos.toNat (1 :: 1 :: golombCode s.lsb 0 2) ∧ (args s 0 0 0 0).arg 0 = 0 :=
  ⟨args (start [0xC8] 0) 1 1 0 0, by unfold State.calm State.holdsBits; decide +kernel⟩

/-! ### Unit 6 -/

theorem witness_LzInitAndRefusedVariants :
    (16 ∈ [16, 32, 64, 128, 256, 512, 1024, 2048, 4096] ∧ (255 : Word).toNat ≤ 255 ∧ (15 : Word).toNat < (16 : Word).toNat)
    ∧ 4095 ∉ [16, 32, 64, 128, 256, 512, 1024, 2048, 4096] ∧ 255 < (256 : Word).toNat
    ∧ (16 : Word).toNat ≤ (16 : Word).toNat ∧ ((3 : BitVec 4) = 3 ∨ (3 : BitVec 4) = 4) ∧ 5 ≤ (5 : BitVec 4).toNat := by decide

theorem witness_LzLiteralsRoundTrip_std : ∃ s : State, s.calm ∧ s.srcInBounds = true ∧ s.dstInBounds = true
    ∧ s.dst.pos ≠ s.dst.len ∧ [1, 2, 3, 4, 5, 6, 7, 8, 9].length = s.dst.len.toNat - s.dst.pos.toNat ∧ s.lz.valid = true
    ∧ s.lz.w.toNat ∈ lzWindowSizes ∧ s.lz.r.toNat < s.lz.w.toNat
    ∧ s.holdsBytes s.nextByte (stdLiterals 0 [1, 2, 3, 4, 5, 6, 7, 8, 9]) :=
  ⟨{ start [0xFF, 1, 2, 3, 4, 5, 6, 7, 8, 0xFF, 9] 0 with dst := ⟨0x200, 9, 0⟩, lz := ⟨true, blankStore 0, 15, 16, 0⟩ },
    by unfold State.calm State.holdsBytes; decide +kernel⟩

theorem witness_LzLiteralsRoundTrip_ons : ∃ s : State, s.calm ∧ s.srcInBounds = true ∧ s.dstInBounds = true
    ∧ s.dst.pos ≠ s.dst.len ∧ [7].length = s.dst.len.toNat - s.dst.pos.toNat
    ∧ s.holdsBits s.src.pos.toNat (onsLiterals s.lsb [7]) :=
  ⟨{ start [0x83, 0x80] 0 with dst := ⟨0x200, 1, 0⟩ }, by unfold State.calm State.holdsBits; decide +kernel⟩

theorem witness_LzLiteralsRoundTrip_tlg5 : ∃ s : State, s.calm ∧ s.srcInBounds = true ∧ s.dstInBounds = true
    ∧ s.dst.pos ≠ s.dst.len ∧ [7, 8].length ≤ s.dst.len.toNat - s.dst.pos.toNat ∧ s.lz.valid = true ∧ s.lz.w = 4096
    ∧ s.holdsBytes s.nextByte (tlg5Literals 0 [7, 8]) ∧ s.nextByte + (tlg5Literals 0 [7, 8]).length = s.src.len.toNat :=
  ⟨{ start [0, 7, 8] 0 with dst := ⟨0x200, 2, 0⟩, lz := ⟨true, blankStore 0, 4095, 4096, 0⟩ },
    by unfold State.calm State.holdsBytes; decide +kernel⟩

theorem witness_LzMatchRepeatsWindow : ∃ (s : State) (flags lo hi : Byte) (d : Nat), s.calm ∧ s.srcInBounds = true
    ∧ s.dstInBounds = true ∧ s.lz.valid = true ∧ s.lz.w.toNat ∈ lzWindowSizes ∧ s.lz.r.toNat < s.lz.w.toNat
    ∧ flags.getLsbD 0 = false ∧ s.holdsBytes s.nextByte [flags, lo, hi] ∧ 1 ≤ d ∧ d ≤ s.lz.w.toNat
    ∧ (lo.toNat + hi.toNat / 16 * 256) % s.lz.w.toNat = (s.lz.r.toNat + s.lz.w.toNat - d) % s.lz.w.toNat
    ∧ s.dst.pos ≠ s.dst.len ∧ s.dst.len.toNat - s.dst.pos.toNat ≤ hi.toNat % 16 + 3 :=
  ⟨{ start [0, 14, 15] 0 with dst := ⟨0x200, 18, 0⟩, lz := ⟨true, blankStore 0, 15, 16, 0⟩ }, 0, 14, 15, 1,
    by unfold State.calm State.holdsBytes; decide +kernel⟩

/-- R351's example: a literal, then a match one byte back of length 5. -/
theorem witness_LzMatchRepeatsWindow_ons : ∃ (s : State) (bytes : List Byte) (i j d : Nat), s.calm ∧ s.srcInBounds = true
    ∧ s.dstInBounds = true ∧ i < 256 ∧ j < 16 ∧ 1 ≤ d ∧ d ≤ 256 ∧ i = (239 + bytes.length + 256 - d) % 256
    ∧ s.holdsBits s.src.pos.toNat (onsLiterals s.lsb bytes ++ 0 :: (fieldBits s.lsb 8 i ++ fieldBits s.lsb 4 j))
    ∧ bytes.length < s.dst.len.toNat - s.dst.pos.toNat ∧ s.dst.len.toNat - s.dst.pos.toNat ≤ bytes.length + j + 2 :=
  ⟨{ start [0xA0, 0xBB, 0xCC] 0 with dst := ⟨0x200, 6, 0⟩ }, [0x41], 239, 3, 1, by
    unfold State.calm State.holdsBits; decide +kernel⟩

/-- R352's match at the end of a span: position 4094, length 18 + 2, at the window's end; with room for it and one byte less. -/
theorem witness_LzMatchRepeatsWindow_tlg5 : ∃ (s u : State) (flags b0 b1 x : Byte) (d n : Nat), (s.calm ∧ s.srcInBounds = true
    ∧ s.dstInBounds = true ∧ s.lz.valid = true ∧ s.lz.w = 4096 ∧ flags.getLsbD 0 = true ∧ 1 ≤ d ∧ d ≤ 4096
    ∧ (b0.toNat + b1.toNat % 16 * 256) % 4096 = (s.lz.r.toNat + 4096 - d) % 4096
    ∧ n = b1.toNat / 16 + 3 + (if b1.toNat / 16 = 15 then x.toNat else 0) ∧ s.dst.pos ≠ s.dst.len
    ∧ s.holdsBytes s.nextByte ([flags, b0, b1] ++ if b1.toNat / 16 = 15 then [x] else [])
    ∧ s.nextByte + (if b1.toNat / 16 = 15 then 4 else 3) = s.src.len.toNat ∧ n ≤ s.dst.len.toNat - s.dst.pos.toNat)
    ∧ u = { s with dst := ⟨0x200, 19, 0⟩ } ∧ u.calm ∧ u.dst.pos ≠ u.dst.len ∧ u.dst.len.toNat - u.dst.pos.toNat < n :=
  ⟨{ start [1, 0xFE, 0xFF, 2] 0 with dst := ⟨0x200, 20, 0⟩, lz := ⟨true, blankStore 0, 0, 4096, 0⟩ }, _, 1, 0xFE, 0xFF, 2, 2, 20,
    by unfold State.calm State.holdsBytes; decide +kernel, rfl, by unfold State.calm; decide +kernel, by decide +kernel,
    by decide +kernel⟩

/-! ### Execution errors -/

theorem witness_ShortOrOverlongCodesAreRefused_rc : ∃ s u : State,
    (s.srcInBounds = true ∧ s.src.len.toNat < s.nextByte + 2 ∧ s.qs.valid = true ∧ s.dstInBounds = true ∧ s.dst.pos ≠ s.dst.len)
    ∧ u.srcInBounds = true ∧ u.rc.st = .decoding ∧ u.nextByte + 1 = u.src.len.toNat
    ∧ (∀ m ≤ 1, rcNeed u.rcCfg (u.rcAfter m) = true) ∧ 1 ≤ (16 : BitVec 5).toNat ∧ (16 : BitVec 5).toNat ≤ 16 :=
  ⟨withModel modelCounting (start [7] 0), { start [7] 0 with rc := ⟨0, 1, 0, 0, .decoding⟩ }, by decide +kernel,
    by decide +kernel⟩

theorem witness_ShortOrOverlongCodesAreRefused_huf : ∃ (s u v : State) (k : Fin 256), s.huf.valid = true ∧ s.srcInBounds = true
    ∧ k.val = (if s.huf.order1 then s.huf.last.toNat else 0)
    ∧ (s.holdsBits s.src.pos.toNat [1] ∧ s.huf.trees[k].esc = 0x8000 ∧ s.src.pos.toNat + [1].length = 8 * s.src.len.toNat)
    ∧ (u.holdsBits u.src.pos.toNat [] ∧ u.huf.trees[k].esc ≠ 0x8000
      ∧ u.src.pos.toNat + ([] : List Nat).length = 8 * u.src.len.toNat
      ∧ hufInner u.huf.trees[k].c (u.huf.trees[k].c.get 0x200) [])
    ∧ v.holdsBits v.src.pos.toNat [1] ∧ v.huf.trees[k].esc ≠ 0x8000
    ∧ hufPath v.huf.trees[k].c (v.huf.trees[k].c.get 0x200) [1] 0x1FF ∧ v.huf.trees[k].c.get 0x1FF = 0xFFFFFFFF
    ∧ 8 * v.src.len.toNat < v.src.pos.toNat + [1].length + 8 :=
  ⟨withTree emptyTree (start [0x01] 7), withTree twoLeaves (start [0x01] 8), withTree twoLeaves (start [0x01] 7), 0, by
    unfold State.holdsBits; simp only [hufInner, hufPath, if_true]; decide +kernel⟩

theorem witness_ShortOrOverlongCodesAreRefused_gol : ∃ s u v w x : State,
    (s.srcInBounds = true ∧ s.lsb = false ∧ s.gol.a.toNat < 1024 ∧ s.holdsBits s.src.pos.toNat []
      ∧ s.src.pos.toNat + ([] : List Nat).length = 8 * s.src.len.toNat ∧ 1 / 2 ^ golombLength s.gol ≤ 255
      ∧ [] <+: golombCode false (golombLength s.gol) 1 ∧ [] ≠ golombCode false (golombLength s.gol) 1)
    ∧ (u.srcInBounds = true ∧ u.holdsBits u.src.pos.toNat [1, 0] ∧ u.src.pos.toNat + [1, 0].length = 8 * u.src.len.toNat
      ∧ [1, 0] <+: eriCode 2 ∧ [1, 0] ≠ eriCode 2)
    ∧ (v.srcInBounds = true ∧ v.holdsBits v.src.pos.toNat [0, 1] ∧ v.src.pos.toNat + [0, 1].length = 8 * v.src.len.toNat
      ∧ [0, 1] <+: runCode v.lsb 2 ∧ [0, 1] ≠ runCode v.lsb 2)
    ∧ (w.srcInBounds = true ∧ (List.replicate 31 1).length = 31
      ∧ w.holdsBits w.src.pos.toNat (1 :: (List.replicate 31 1).flatMap (fun b => [b, 1])))
    ∧ x.srcInBounds = true ∧ x.holdsBits x.src.pos.toNat (List.replicate 32 0) :=
  ⟨start [] 0, start [2] 6, start [1] 6, start (List.replicate 8 0xFF) 1, start (List.replicate 4 0) 0,
    by unfold State.holdsBits; decide +kernel, by unfold State.holdsBits; decide +kernel,
    by unfold State.holdsBits; decide +kernel, by unfold State.holdsBits; decide +kernel, by decide +kernel,
    by unfold State.holdsBits; decide +kernel⟩

theorem witness_ShortOrOverlongCodesAreRefused_block : ∃ s : State, s.calm ∧ s.srcInBounds = true ∧ s.dstInBounds = true
    ∧ s.arg 0 ≠ 0 ∧ s.arg 1 ≠ 0 ∧ s.dst.pos.toNat + ((s.arg 0).toNat - 1) * (s.arg 1).toNat < s.dst.len.toNat
    ∧ s.src.pos.toNat = 8 * s.src.len.toNat :=
  ⟨args (start [1] 8) 16 1 0 0, by unfold State.calm; decide +kernel⟩

theorem witness_ShortOrOverlongCodesAreRefused_lz : ∃ (s u v w : State) (bytes : List Byte),
    (s.calm ∧ s.srcInBounds = true ∧ s.dstInBounds = true ∧ bytes.length = s.dst.len.toNat - s.dst.pos.toNat ∧ s.lz.valid = true
      ∧ [0xFF] <+: stdLiterals 0 bytes ∧ [0xFF] ≠ stdLiterals 0 bytes ∧ s.holdsBytes s.nextByte [0xFF]
      ∧ s.nextByte + 1 = s.src.len.toNat)
    ∧ (u.calm ∧ u.srcInBounds = true ∧ u.dstInBounds = true ∧ bytes.length = u.dst.len.toNat - u.dst.pos.toNat
      ∧ [1] <+: onsLiterals u.lsb bytes ∧ [1] ≠ onsLiterals u.lsb bytes ∧ u.holdsBits u.src.pos.toNat [1]
      ∧ u.src.pos.toNat + 1 = 8 * u.src.len.toNat)
    ∧ (v.calm ∧ v.srcInBounds = true ∧ v.dstInBounds = true ∧ v.dst.pos ≠ v.dst.len ∧ v.lz.valid = true ∧ v.lz.w = 4096
      ∧ (1 : Byte).getLsbD 0 = true ∧ v.holdsBytes v.nextByte [1, 0] ∧ v.nextByte + 2 = v.src.len.toNat)
    ∧ w.calm ∧ w.lz.valid = true ∧ w.lz.w = 4096 ∧ w.holdsBytes w.nextByte [1, 0, 0xF0] ∧ (0xF0 : Byte).toNat / 16 = 15
      ∧ w.nextByte + 3 = w.src.len.toNat :=
  ⟨{ start [0xFF] 0 with dst := ⟨0x200, 1, 0⟩, lz := ⟨true, blankStore 0, 0, 16, 0⟩ },
    { start [1] 7 with dst := ⟨0x200, 1, 0⟩ }, { start [1, 0] 0 with lz := ⟨true, blankStore 0, 0, 4096, 0⟩ },
    { start [1, 0, 0xF0] 0 with lz := ⟨true, blankStore 0, 0, 4096, 0⟩ }, [5],
    by unfold State.calm State.holdsBytes; decide +kernel, by unfold State.calm State.holdsBits; decide +kernel,
    by unfold State.calm State.holdsBytes; decide +kernel, by unfold State.calm State.holdsBytes; decide +kernel⟩

/-! ### Units 7 and 8 -/

/-- A state whose direct operands end exactly at, or with `k` past, the end of BUF. -/
def direct (addr k : Word) : State :=
  { start [] 0 with
    args := #v[0, 0, addr + k, 16, addr + k, 0, 0, 16]
    cam := ⟨true, 0, 0⟩
    neko := ⟨true, 0⟩
    buf := blankStore 0 }

theorem witness_CamDecryptsBlocks : ∃ (s u : State) (c : BitVec 128),
    (s.cam.keyed = true ∧ s.tainted = false ∧ (s.arg 4).toNat + 16 ≤ s.cfg.bufSize
      ∧ (s.arg 4).toNat + (s.arg 7).toNat / 16 * 16 ≤ s.cfg.bufSize
      ∧ ∀ i < 16, c.extractLsb' (8 * (15 - i)) 8 = s.buf.get ((s.arg 4).toNat + i))
    ∧ (u.cam.keyed = true ∧ u.cfg.bufSize < (u.arg 4).toNat + 16
      ∧ u.cfg.bufSize < (u.arg 4).toNat + (u.arg 7).toNat / 16 * 16)
    ∧ State.reset.cam.keyed = false :=
  ⟨direct 0x00FFFFF0 0, direct 0x00FFFFF0 1, 0, by decide +kernel⟩

theorem witness_PaddwIsLanewise : 3 < 4 ∧ 0 < 4 := by decide

theorem witness_CamDecInvertsEncryption : camS1 255 = camS1 255 := rfl

theorem witness_NekoDecryptsWords : ∃ s u : State,
    (s.neko.keyed = true ∧ s.tainted = false ∧ (s.arg 2).toNat + (s.arg 3).toNat / 8 * 8 ≤ s.cfg.bufSize)
    ∧ (u.neko.keyed = true ∧ u.cfg.bufSize < (u.arg 2).toNat + (u.arg 3).toNat / 8 * 8) ∧ State.reset.neko.keyed = false :=
  ⟨direct 0x00FFFFF0 0, direct 0x00FFFFF0 1, by decide +kernel⟩

theorem witness_NekoDecryptsWords_splits : ∃ s t u w : State, s.err = false ∧ s.tainted = false
    ∧ (s.arg 2).toNat + 8 * (1 + 1) ≤ s.cfg.bufSize
    ∧ exec .nekoDecrypt { s with args := s.args.set 3 (BitVec.ofNat 32 (8 * 1)) } = .next t
    ∧ exec .nekoDecrypt { t with
      args := (t.args.set 2 (s.arg 2 + BitVec.ofNat 32 (8 * 1))).set 3 (BitVec.ofNat 32 (8 * 1)) } = .next u
    ∧ exec .nekoDecrypt { s with args := s.args.set 3 (BitVec.ofNat 32 (8 * (1 + 1))) } = .next w ∧ w.err = false :=
  ⟨direct 0x00FFFFF0 0, _, _, _, rfl, rfl, by decide +kernel, exec_after _ _, exec_after _ _, exec_after _ _,
    by decide +kernel⟩

/-! ### Unit 9 -/

/-- A state with zero arrays and BUF, the residuals and the samples at the given addresses, and a stride. -/
def blank (input output stride : Word) : State :=
  { start [] 0 with
    args := #v[input, stride, 0, output, stride, 0, 0, 0]
    buf := blankStore 0
    xf := ⟨blankStore 0, blankStore 0, blankStore 0, blankStore 0, blankStore 0⟩ }

theorem witness_XfLoadsAndStores : (degreeOk 12 = true
      ∧ ((blank 0x00FFC000 0 2).arg 0).toNat + 4 * 2 ^ (12 : BitVec 4).toNat ≤ (blank 0x00FFC000 0 2).cfg.bufSize
      ∧ (blank 0x00FFC000 0 2).tainted = false)
    ∧ (degreeOk 2 = true ∧ (blank 0x00FFFFF1 0 2).cfg.bufSize < ((blank 0x00FFFFF1 0 2).arg 0).toNat + 4 * 2 ^ (2 : BitVec 4).toNat)
    ∧ degreeOk 1 = false ∧ degreeOk 13 = false := by decide +kernel

theorem witness_FloatOperationsRoundToNearest : (fFinite 0x7F7FFFFF = true ∧ fFinite 0x80000000 = true)
    ∧ fNaN 0x7FC00000 = true ∧ fNaN 0x00000001 = false ∧ (0x00000001 : F32) ≠ fInf true ∧ fZero 0x00000001 = false
    ∧ fNaN (fInf true) = false ∧ fZero 0x80000000 = true := by decide

theorem witness_DctFixedPointIsTheRealDct : (List.replicate 4 (0x3F800000 : F32)).length = 2 ^ 2
    ∧ (List.replicate (2 ^ 12) (0x3F800000 : F32)).length = 2 ^ 12 := ⟨rfl, List.length_replicate⟩

theorem witness_XfIquantAndGivens : degreeOk 2 = true ∧ degreeOk 1 = false ∧ degreeOk 13 = false ∧ ∃ s : State, ∀ i < 2 ^ (2 : BitVec 4).toNat, fZero (s.xf.xa.get i) = true :=
  ⟨by decide, by decide, by decide, blank 0 0 2, by decide +kernel⟩

theorem witness_XfLappedTransform : degreeOk 2 = true ∧ degreeOk 12 = true ∧ degreeOk 0 = false
    ∧ degreeOk 15 = false := by decide

theorem witness_XfIdctIsAccurate : degreeOk 2 = true ∧ degreeOk 13 = false ∧ dctInRange 2 ((withXa block1).xaBlock 4) = true
    ∧ dctInRange 2 ((withXa (blankStore 0)).xaBlock 4) = true ∧ ∀ i < 4, fZero ((withXa (blankStore 0)).xf.xa.get i) = true := by
  decide +kernel

/-- A block of zeros has an output that meets P-XF.2. -/
theorem witness_XfIdctIsAccurate_met : ∃ (xs : List F32) (y : F32), xs = (withXa (blankStore 0)).xaBlock 4 ∧ fFinite y = true
    ∧ 2 ^ 16 * (fInt y * 2 ^ cosBits 2 - dctExact 2 xs 3).natAbs ≤ dctSize 2 xs 3 :=
  ⟨_, 0, rfl, by decide +kernel⟩

theorem witness_XfStore16RoundsAndStores : degreeOk 1 = false ∧ degreeOk 2 = true ∧ (blank 0 0 0).arg 1 = 0
    ∧ (∃ s : State, ∃ lo hi : Int, s.arg 1 ≠ 0 ∧ s.tainted = false
      ∧ lo = min ((s.arg 0).toNat : Int) ((s.arg 0).toNat + (s.arg 1).toInt * (((2 ^ (2 : BitVec 4).toNat : Nat) : Int) - 1))
      ∧ hi = max ((s.arg 0).toNat : Int) ((s.arg 0).toNat + (s.arg 1).toInt * (((2 ^ (2 : BitVec 4).toNat : Nat) : Int) - 1)) + 2
      ∧ 0 ≤ lo ∧ hi ≤ (s.cfg.bufSize : Int) ∧ ∀ i < 2 ^ (2 : BitVec 4).toNat, fNaN (s.xf.xa.get i) = false)
    ∧ ∃ s : State, ∃ lo : Int, s.arg 1 ≠ 0
      ∧ lo = min ((s.arg 0).toNat : Int) ((s.arg 0).toNat + (s.arg 1).toInt * (((2 ^ (2 : BitVec 4).toNat : Nat) : Int) - 1))
      ∧ lo < 0 :=
  ⟨by decide, by decide, by decide +kernel, ⟨blank 6 0 0xFFFFFFFE, 0, 8, by decide +kernel⟩,
    ⟨blank 5 0 0xFFFFFFFE, -1, by decide +kernel⟩⟩

theorem witness_XfStore16RoundsAndStores_nan : ∃ s : State, s.arg 1 ≠ 0 ∧ fNaN (s.xf.xa.get 3) = true
    ∧ ∀ j < 3, fNaN (s.xf.xa.get j) = false :=
  ⟨args (withXa (block2.set 3 0x7FC00000)) 0x300 2 0 0, by decide +kernel⟩

theorem witness_XfRestoreOfZeroBlock : ∃ s : State, degreeOk 2 = true ∧ s.tainted = false ∧ s.arg 4 ≠ 0
    ∧ (s.arg 0).toNat + 4 * 4 ≤ s.cfg.bufSize
    ∧ 0 ≤ min ((s.arg 3).toNat : Int) ((s.arg 3).toNat + (s.arg 4).toInt * (((4 : Nat) : Int) - 1))
    ∧ max ((s.arg 3).toNat : Int) ((s.arg 3).toNat + (s.arg 4).toInt * (((4 : Nat) : Int) - 1)) + 2 ≤ (s.cfg.bufSize : Int)
    ∧ (∀ a, (s.arg 0).toNat ≤ a → a < (s.arg 0).toNat + 4 * 4 → s.buf.get a = 0)
    ∧ ∀ i < 4, fZero (s.xf.xc.get i) = true :=
  ⟨blank 0x00FFFFF0 6 0xFFFFFFFE, by decide, rfl, by decide +kernel, by decide +kernel, by decide +kernel, by decide +kernel,
    fun _ _ _ => rfl, by decide +kernel⟩

/-- The range of the samples an XF_RESTORE of degree 2 stores: lowest address and end. -/
def restoreSpan (s : State) : Int × Int :=
  (min ((s.arg 3).toNat : Int) ((s.arg 3).toNat + (s.arg 4).toInt * (((4 : Nat) : Int) - 1)),
    max ((s.arg 3).toNat : Int) ((s.arg 3).toNat + (s.arg 4).toInt * (((4 : Nat) : Int) - 1)) + 2)

theorem witness_XfRestoreIsItsStages : ∃ s : State, degreeOk 2 = true ∧ s.err = false ∧ s.tainted = false ∧ s.arg 4 ≠ 0
    ∧ (s.arg 0).toNat + 4 * 4 ≤ s.cfg.bufSize ∧ 0 ≤ (restoreSpan s).1 ∧ (restoreSpan s).2 ≤ (s.cfg.bufSize : Int) :=
  ⟨blank 0x100 0x00FFFFF8 2, by decide +kernel⟩

/-- Each of the four checks fails where those before it pass: residuals one byte past BUF, an output that starts one byte below 0
and one that ends one byte past BUF. -/
theorem witness_XfRestoreIsItsStages_refused : degreeOk 1 = false ∧ degreeOk 2 = true ∧ ∃ s t u v : State,
    s.arg 4 = 0
    ∧ (t.arg 4 ≠ 0 ∧ (t.arg 0).toNat + 4 * 4 = t.cfg.bufSize + 1)
    ∧ (u.arg 4 ≠ 0 ∧ (u.arg 0).toNat + 4 * 4 = u.cfg.bufSize ∧ (restoreSpan u).1 = -1)
    ∧ (v.arg 4 ≠ 0 ∧ (v.arg 0).toNat + 4 * 4 = v.cfg.bufSize ∧ (restoreSpan v).2 = (v.cfg.bufSize : Int) + 1) :=
  ⟨by decide, by decide, blank 0 0 0, blank 0x00FFFFF1 0 2, blank 0x00FFFFF0 5 0xFFFFFFFE, blank 0x00FFFFF0 0x00FFFFF9 2,
    by decide +kernel⟩

/-- The errors of the four checks (R475; XF15). -/
theorem test_xf_restore_checks : ((blank 0 0 2).run (.xfRestore 13)).errcode = 0xA905
    ∧ ((blank 0 0 0).run (.xfRestore 2)).errcode = 0xA905
    ∧ ((blank 0x00FFFFF1 0x00FFFFF9 2).run (.xfRestore 2)).errinfo = 0x00FFFFF1
    ∧ ((blank 0x00FFFFF0 0x00FFFFF9 2).run (.xfRestore 2)).errinfo = 0x00FFFFF9 := by decide +kernel

/-! ### Invariants -/

theorem witness_StepKeepsBuf : ∃ s t : State, s.BufInv ∧ step s = .next t :=
  ⟨{ start [1, 2] 0 with host := [.bufPut 0x101 .byte 7], turns := [.host], irqen := 0xE }, _,
    ⟨by decide +kernel, by decide +kernel, by decide +kernel, by decide +kernel⟩, rfl⟩

theorem witness_StepKeepsQsModel : ∃ s t : State, s.qs.valid = true ∧ s.QsInv ∧ step s = .next t :=
  ⟨{ withModel modelFull (args (start [] 0) 256 0 0 0) with cmd := 0x34000000 }, _, rfl, fun _ => modelFull_good,
    rfl⟩

theorem witness_StepKeepsUnits : ∃ s t : State, s.lz.valid = true ∧ s.cam.keyed = true ∧ s.UnitInv ∧ step s = .next t :=
  ⟨{ start [] 0 with cmd := 0x71000000, cam := ⟨true, 5, camDerive 5⟩, lz := ⟨true, blankStore 0, 15, 16, 0⟩ }, _, rfl, rfl,
    ⟨fun _ => by decide +kernel, fun _ => rfl⟩, rfl⟩

theorem witness_StepKeepsTrees : ∃ s t : State, s.huf.valid = true ∧ s.TreeInv ∧ step s = .next t :=
  ⟨{ withTree (weighted 1 1) (start [0x01, 0x42] 7) with cmd := 0x41000000 }, _, rfl,
    fun _ k => .inr (by
      have h : (Vector.replicate 256 (weighted 1 1))[k] = weighted 1 1 := Vector.getElem_replicate _
      change (Vector.replicate 256 (weighted 1 1))[k].Filled
      rw [h]; exact weighted_filled 1 1 (by decide) (by decide) (by decide)), rfl⟩

end Sys2Proof.Tests
end

section
/-! PROOFS. What every computation of a command answers, which errors it can raise, and where it writes BUF. -/

namespace Sys2Proof.Machine

/-! ## What a computation answers and raises -/

/-- The errors a command may end with (60_exceptions.md R501): IllegalCommand comes before the dispatch (R502), and CommandOverrun
and DecryptionMismatch are never raised (R509, R514). -/
def Err.endsCommand (e : Err) : Bool :=
  match e with
  | .illegalCommand | .commandOverrun | .decryptionMismatch => false
  | _ => true

theorem Err.endsCommand_iff (e : Err) : e.endsCommand = true ↔ e.code ∈ [1, 2, 3, 5, 6, 7, 10] := by
  cases e <;> decide

/-- Whatever `x` answers has the property `P`, and whatever it raises may end a command. -/
def Run.Meets {α : Type} (x : Run α) (P : α → Prop) : Prop :=
  match x with
  | .ok a => P a
  | .error r => r.err.endsCommand = true

namespace Run.Meets

variable {α β : Type} {x : Run α} {P Q : α → Prop} {R : β → Prop}

theorem of_ok {a : α} (h : Run.Meets x P) (hx : x = .ok a) : P a := by
  subst hx; exact h

theorem of_error {r : Raise} (h : Run.Meets x P) (hx : x = .error r) : r.err.endsCommand = true := by
  subst hx; exact h

theorem mono (h : Run.Meets x P) (hPQ : ∀ a, P a → Q a) : Run.Meets x Q := by
  cases x with
  | ok a => exact hPQ a h
  | error r => exact h

theorem bind {f : α → Run β} (h : Run.Meets x P) (hf : ∀ a, P a → Run.Meets (f a) R) : Run.Meets (x >>= f) R := by
  cases x with
  | ok a => exact hf a h
  | error r => exact h

end Run.Meets

theorem require_meets {c : Bool} {e : Err} (info : Word) (he : e.endsCommand = true) :
    Run.Meets (require c e info) (fun _ => c = true) := by
  cases c
  · exact he
  · exact rfl

/-! ## The checks -/

theorem checkSrc_meets (s : State) : Run.Meets s.checkSrc (fun _ => s.srcInBounds = true) := require_meets _ rfl

theorem checkDst_meets (s : State) :
    Run.Meets s.checkDst (fun _ => s.dst.base.toNat + s.dst.len.toNat ≤ s.cfg.bufSize ∧ s.dst.pos.toNat ≤ s.dst.len.toNat) :=
  (require_meets _ rfl).mono fun _ h => by simpa [State.dstInBounds] using h

theorem checkDirect_meets (s : State) (addr : Word) (n : Nat) :
    Run.Meets (s.checkDirect addr n) (fun _ => addr.toNat + n ≤ s.cfg.bufSize) :=
  (require_meets _ rfl).mono fun _ h => by simpa using h

theorem requireReady_meets (s : State) (c : Bool) : Run.Meets (s.requireReady c) (fun _ => c = true) := require_meets _ rfl

theorem checkBitsLeft_meets (s : State) (n : Nat) : Run.Meets (s.checkBitsLeft n) (fun _ => True) :=
  (require_meets _ rfl).mono fun _ _ => trivial

theorem checkDegree_meets (d : BitVec 4) : Run.Meets (checkDegree d) (fun _ => degreeOk d = true) := require_meets _ rfl

theorem checkNaN_meets (s : State) (n : Nat) : Run.Meets (s.checkNaN n) (fun _ => True) := by
  unfold State.checkNaN
  split
  · exact trivial
  · exact rfl

/-- Every sample of a checked block lies in BUF: its address is between the first and the last one (47_transform.md R470). -/
theorem checkSamples_meets (s : State) (addr stride : Word) (n : Nat) :
    Run.Meets (s.checkSamples addr stride n) (fun _ => ∀ i < n, (sampleAt addr stride i).toNat + 2 ≤ s.cfg.bufSize) := by
  refine (require_meets _ rfl).mono fun _ h i hi => ?_
  obtain ⟨hlo, hhi⟩ := Bool.and_eq_true_iff.mp h
  have hlo := of_decide_eq_true hlo
  have hhi := of_decide_eq_true hhi
  unfold sampleAt at hlo hhi ⊢
  have hle : (i : Int) ≤ ((n - 1 : Nat) : Int) := by omega
  rcases Int.le_total 0 stride.toInt with hs | hs
  · have h0 := Int.mul_nonneg hs (Int.natCast_nonneg i)
    have h1 := Int.mul_le_mul_of_nonneg_left hle hs
    omega
  · have h0 := Int.mul_nonpos_of_nonpos_of_nonneg hs (Int.natCast_nonneg i)
    have h1 := Int.mul_le_mul_of_nonpos_left hs hle
    omega

theorem checkGolDecode_meets (s : State) :
    Run.Meets s.checkGolDecode (fun _ => ∀ j < (s.arg 0).toNat, s.golOut j < s.cfg.bufSize) := by
  unfold State.checkGolDecode
  split
  · next h0 =>
    intro j hj
    simp [h0] at hj
  · refine .bind (require_meets _ rfl) fun _ _ => .bind (checkSrc_meets s) fun _ _ => .bind (checkDst_meets s) fun _ hd =>
      (require_meets _ rfl).mono fun _ hl j hj => ?_
    have hl := of_decide_eq_true hl
    have hm : j * (s.arg 1).toNat ≤ ((s.arg 0).toNat - 1) * (s.arg 1).toNat := Nat.mul_le_mul_right _ (by omega)
    unfold State.golOut
    omega

theorem checkLzDecompress_meets (s : State) (v : Nat) :
    Run.Meets (s.checkLzDecompress v) (fun _ =>
      s.dst.base.toNat + s.dst.len.toNat ≤ s.cfg.bufSize ∧ s.dst.pos.toNat ≤ s.dst.len.toNat) :=
  .bind (require_meets _ rfl) fun _ _ => .bind (require_meets _ rfl) fun _ _ => .bind (requireReady_meets _ _) fun _ _ =>
    .bind (requireReady_meets _ _) fun _ _ => .bind (checkSrc_meets s) fun _ _ => checkDst_meets s

/-! ## BUF: canonical, and listing only addresses that exist -/

/-- BUF is canonical and lists no address at or past `size`: the part of `State.BufInv` that is about BUF. -/
def Store.Fits (buf : Store 8) (size : Nat) : Prop := buf.wf = true ∧ ∀ c ∈ buf.cells, c.1 < size

section

variable {buf : Store 8} {size : Nat}

theorem Store.Fits.set (h : buf.Fits size) {a : Nat} (ha : a < size) (v : Byte) : (buf.set a v).Fits size := by
  refine ⟨Store.set_wf h.1 a v, fun c hc => ?_⟩
  unfold Store.set at hc
  split at hc
  · rw [cellDrop_eq_filter] at hc
    exact h.2 c (List.mem_of_mem_filter hc)
  · rcases mem_cellPut hc with rfl | hc
    · exact ha
    · exact h.2 c hc

theorem Store.Fits.setSpan (h : buf.Fits size) {base n : Nat} (hb : base + n ≤ size) (f : Nat → Byte) :
    (buf.setSpan base n f).Fits size := by
  refine ⟨Store.setSpan_wf h.1 base n f, fun c hc => ?_⟩
  simp only [Store.setSpan, List.mem_append] at hc
  rcases hc with (hc | hc) | hc
  · exact h.2 c (List.mem_of_mem_filter hc)
  · have := mem_spanCells hc
    omega
  · exact h.2 c (List.mem_of_mem_filter hc)

theorem Store.Fits.setEach (h : buf.Fits size) {entries : List Nat} (he : ∀ a ∈ entries, a < size) (f : Nat → Byte) :
    (buf.setEach entries f).Fits size := by
  induction entries generalizing buf with
  | nil => exact h
  | cons a rest ih =>
    exact ih (h.set (he a (List.mem_cons_self ..)) (f a)) fun b hb => he b (List.mem_cons_of_mem _ hb)

theorem Store.Fits.putByte (h : buf.Fits size) (taint : Option Nat) {a : Nat} (ha : a < size) (b : Byte) :
    (putByte taint buf a b).Fits size := h.set ha _

theorem Store.Fits.memWriteLE (h : buf.Fits size) (taint : Option Nat) {addr n : Nat} (ha : addr + n ≤ size) (v : Nat) :
    (memWriteLE taint buf addr n v).Fits size := h.setSpan ha _

theorem Store.Fits.memWriteBE (h : buf.Fits size) (taint : Option Nat) {addr n : Nat} (ha : addr + n ≤ size) (v : Nat) :
    (memWriteBE taint buf addr n v).Fits size := h.setSpan ha _

theorem camDecryptFrom_fits (s : State) {n a : Nat} (bo : BitVec 64) (h : buf.Fits size) (ha : a + 16 * n ≤ size) :
    (s.camDecryptFrom n a bo buf).Fits size := by
  induction n generalizing a bo buf with
  | zero => exact h
  | succ n ih => exact ih (bo + 16) (h.memWriteBE _ (by omega) _) (by omega)

theorem nekoDecryptFrom_fits (taint : Option Nat) {n a : Nat} (key : BitVec 64) (h : buf.Fits size) (ha : a + 8 * n ≤ size) :
    (nekoDecryptFrom taint n a buf key).1.Fits size := by
  induction n generalizing a key buf with
  | zero => exact h
  | succ n ih => exact ih _ (h.memWriteLE _ (by omega) _) (by omega)

theorem storeFloats_fits (taint : Option Nat) (xa : Store 32) {addr n i : Nat} (h : buf.Fits size)
    (ha : addr + 4 * (i + n) ≤ size) : (storeFloats taint xa addr n i buf).Fits size := by
  induction n generalizing i buf with
  | zero => exact h
  | succ n ih => exact ih (h.memWriteLE _ (by omega) _) (by omega)

theorem storeSamples_fits (taint : Option Nat) (xa : Store 32) (addr stride : Word) {n i : Nat} (h : buf.Fits size)
    (ha : ∀ k < i + n, (sampleAt addr stride k).toNat + 2 ≤ size) : (storeSamples taint xa addr stride n i buf).Fits size := by
  induction n generalizing i buf with
  | zero => exact h
  | succ n ih => exact ih (h.memWriteLE _ (ha i (by omega)) _) fun k hk => ha k (by omega)

end

/-! ## Source reads: only the source cursor moves -/

/-- From `io` to `io'` only the source cursor moved. -/
def Io.Reads (io io' : Io) : Prop := io'.buf = io.buf ∧ io'.out = io.out

theorem Io.Reads.refl (io : Io) : io.Reads io := ⟨rfl, rfl⟩

theorem Io.Reads.trans {a b c : Io} (h : a.Reads b) (h' : b.Reads c) : a.Reads c := ⟨h'.1.trans h.1, h'.2.trans h.2⟩

theorem Io.reads_pos (io : Io) (p : Nat) : io.Reads { io with pos := p } := ⟨rfl, rfl⟩

theorem srcBit_meets (e : Env) (io : Io) : Run.Meets (srcBit e io) (fun p => io.Reads p.2) := by
  unfold srcBit
  split
  · exact rfl
  · exact io.reads_pos _

theorem srcByte_meets (e : Env) (io : Io) : Run.Meets (srcByte e io) (fun p => io.Reads p.2) := by
  unfold srcByte
  dsimp only
  split
  · exact rfl
  · exact io.reads_pos _

theorem srcBitsFrom_meets (e : Env) (n i v : Nat) (io : Io) : Run.Meets (srcBitsFrom e n i v io) (fun p => io.Reads p.2) := by
  induction n generalizing i v io with
  | zero => exact .refl io
  | succ n ih =>
    unfold srcBitsFrom
    split
    · next hb => exact (srcBit_meets e io).of_error hb
    · next hb => exact (ih ..).mono fun _ h => ((srcBit_meets e io).of_ok hb).trans h

theorem srcBits_meets (e : Env) (n : Nat) (io : Io) : Run.Meets (srcBits e n io) (fun p => io.Reads p.2) :=
  srcBitsFrom_meets ..

theorem eriPairs_meets (e : Env) (left code base pairs : Nat) (io : Io) :
    Run.Meets (eriPairs e left code base pairs io) (fun p => io.Reads p.2.2) := by
  induction left generalizing code base pairs io with
  | zero =>
    unfold eriPairs
    refine .bind (srcBit_meets e io) fun ⟨d, io1⟩ h1 => .bind (srcBit_meets e io1) fun ⟨more, io2⟩ h2 => ?_
    dsimp only
    split
    · exact h1.trans h2
    · exact rfl
  | succ left ih =>
    unfold eriPairs
    refine .bind (srcBit_meets e io) fun ⟨d, io1⟩ h1 => .bind (srcBit_meets e io1) fun ⟨more, io2⟩ h2 => ?_
    dsimp only
    split
    · exact h1.trans h2
    · exact (ih ..).mono fun _ h => (h1.trans h2).trans h

theorem eriGamma_meets (e : Env) (io : Io) : Run.Meets (eriGamma e io) (fun p => io.Reads p.2.2) := by
  unfold eriGamma
  refine .bind (srcBit_meets e io) fun ⟨b, io1⟩ h1 => ?_
  dsimp only
  split
  · exact h1
  · exact (eriPairs_meets ..).mono fun _ h => h1.trans h

theorem runZeros_meets (e : Env) (left z : Nat) (io : Io) : Run.Meets (runZeros e left z io) (fun p => io.Reads p.2) := by
  induction left generalizing z io with
  | zero =>
    unfold runZeros
    refine .bind (srcBit_meets e io) fun ⟨b, io1⟩ h1 => ?_
    dsimp only
    split
    · exact h1
    · exact rfl
  | succ left ih =>
    unfold runZeros
    refine .bind (srcBit_meets e io) fun ⟨b, io1⟩ h1 => ?_
    dsimp only
    split
    · exact h1
    · exact (ih ..).mono fun _ h => h1.trans h

theorem runGamma_meets (e : Env) (io : Io) : Run.Meets (runGamma e io) (fun p => io.Reads p.2.2) :=
  .bind (runZeros_meets ..) fun ⟨_, _⟩ h1 => .bind (srcBits_meets ..) fun ⟨_, _⟩ h2 => h1.trans h2

/-- The zeros before a Golomb-Rice value (R318) are read as those of a run length are (R301). -/
theorem golUnary_eq_runZeros (e : Env) (left q : Nat) (io : Io) : golUnary e left q io = runZeros e left q io := by
  induction left generalizing q io with
  | zero => rfl
  | succ left ih =>
    unfold golUnary runZeros
    simp only [ih]

theorem golUnary_meets (e : Env) (left q : Nat) (io : Io) : Run.Meets (golUnary e left q io) (fun p => io.Reads p.2) :=
  golUnary_eq_runZeros e left q io ▸ runZeros_meets ..

theorem golPrefix_meets (e : Env) (io : Io) : Run.Meets (golPrefix e io) (fun p => io.Reads p.2) := by
  unfold golPrefix golEscape
  split
  · dsimp only
    split
    · exact rfl
    · exact io.reads_pos _
  · exact golUnary_meets ..

theorem golValue_meets (e : Env) (g : Gol) (io : Io) : Run.Meets (golValue e g io) (fun c => io.Reads c.io) := by
  unfold golValue
  split
  · exact rfl
  · exact .bind (golPrefix_meets e io) fun ⟨_, _⟩ h1 => .bind (srcBits_meets ..) fun ⟨_, _⟩ h2 => h1.trans h2

theorem hufWalk_meets (e : Env) (c : Store 32) (fuel : Nat) (ch : BitVec 32) (io : Io) :
    Run.Meets (hufWalk e c fuel ch io) (fun p => io.Reads p.2) := by
  induction fuel generalizing ch io with
  | zero => exact rfl
  | succ fuel ih =>
    unfold hufWalk
    split
    · next hb => exact (srcBit_meets e io).of_error hb
    · next hb =>
      have h1 := (srcBit_meets e io).of_ok hb
      dsimp only
      split
      · exact h1
      · exact (ih ..).mono fun _ h => h1.trans h

theorem hufLiteral_meets (e : Env) (t : Tree) (io : Io) : Run.Meets (hufLiteral e t io) (fun p => io.Reads p.2) :=
  .bind (srcBits_meets ..) fun ⟨_, _⟩ h => h

theorem hufDecodeTree_meets (e : Env) (t : Tree) (io : Io) : Run.Meets (hufDecodeTree e t io) (fun p => io.Reads p.2) := by
  unfold hufDecodeTree
  split
  · exact hufLiteral_meets ..
  · refine .bind (hufWalk_meets ..) fun ⟨node, io1⟩ h1 => ?_
    dsimp only
    split
    · exact (hufLiteral_meets ..).mono fun _ h => h1.trans h
    · exact h1

theorem rcNormalizeFrom_meets (g : RcCfg) (e : Env) (fuel n : Nat) (rc : Rc) (io : Io) :
    Run.Meets (rcNormalizeFrom g e fuel n rc io) (fun p => io.Reads p.2.2) := by
  induction fuel generalizing n rc io with
  | zero => exact rfl
  | succ fuel ih =>
    unfold rcNormalizeFrom
    split
    · split
      · next hb => exact (srcByte_meets e io).of_error hb
      · next hb => exact (ih ..).mono fun _ h => ((srcByte_meets e io).of_ok hb).trans h
    · exact .refl io

theorem rcNormalize_meets (g : RcCfg) (e : Env) (rc : Rc) (io : Io) :
    Run.Meets (rcNormalize g e rc io) (fun p => io.Reads p.2.2) := rcNormalizeFrom_meets ..

theorem rcStartup_meets (g : RcCfg) (e : Env) (io : Io) : Run.Meets (rcStartup g e io) (fun p => io.Reads p.2.2) :=
  .bind (srcByte_meets ..) fun ⟨_, _⟩ h1 => .bind (srcByte_meets ..) fun ⟨_, _⟩ h2 => h1.trans h2

theorem rcCulshift_meets (g : RcCfg) (e : Env) (shift : Nat) (rc : Rc) (io : Io) :
    Run.Meets (rcCulshift g e shift rc io) (fun p => io.Reads p.2.2) :=
  .bind (rcNormalize_meets ..) fun ⟨_, _, _⟩ h => h

theorem lzFlags_meets (e : Env) (ctl : Nat) (io : Io) : Run.Meets (lzFlags e ctl io) (fun p => io.Reads p.2.2) := by
  unfold lzFlags
  dsimp only
  split
  · split
    · next hb => exact (srcByte_meets e io).of_error hb
    · next hb => exact (srcByte_meets e io).of_ok hb
  · exact .refl io

/-! ## The storing loops keep BUF inside its size -/

/-- From `io` to `io'`, BUF stays canonical and below `size`. -/
def Io.KeepsFits (size : Nat) (io io' : Io) : Prop := io.buf.Fits size → io'.buf.Fits size

theorem Io.Reads.keepsFits {a b : Io} (h : a.Reads b) (size : Nat) : a.KeepsFits size b := fun hf => h.1 ▸ hf

theorem Io.KeepsFits.trans {size : Nat} {a b c : Io} (h : a.KeepsFits size b) (h' : b.KeepsFits size c) :
    a.KeepsFits size c := h' ∘ h

section

variable {size : Nat} {e : Env} (hd : e.dstBase + e.dstLen ≤ size)
include hd

theorem dstPut_keepsFits {io : Io} (h : dstFull e io = false) (b : Byte) : io.KeepsFits size (dstPut e io b) := fun hf =>
  hf.putByte _ (by have := dstFull_false.mp h; omega) b

theorem lzCopy_keepsFits (n pos : Nat) (l : LzLoop) : l.io.KeepsFits size (lzCopy e n pos l).io := by
  induction n generalizing pos l with
  | zero => exact id
  | succ n ih =>
    unfold lzCopy
    split
    · exact id
    · next h => exact (dstPut_keepsFits hd (by simpa using h) _).trans (ih _ (lzEmit e l _))

theorem lzCopyStrict_meets (n pos : Nat) (l : LzLoop) :
    Run.Meets (lzCopyStrict e n pos l) (fun l' => l.io.KeepsFits size l'.io) := by
  induction n generalizing pos l with
  | zero => exact id
  | succ n ih =>
    unfold lzCopyStrict
    split
    · exact rfl
    · next h => exact (ih _ _).mono fun _ h' => (dstPut_keepsFits hd (by simpa using h) _).trans h'

/-- A literal read with room left: the read keeps the room. -/
theorem lzEmit_keepsFits {l : LzLoop} {io : Io} (hr : l.io.Reads io) (h : dstFull e l.io = false) (b : Byte) :
    l.io.KeepsFits size (lzEmit e { l with io := io } b).io :=
  (hr.keepsFits size).trans (dstPut_keepsFits hd (by rw [dstFull, hr.2]; exact h) b)

theorem stdStep_meets (ctl : Nat) {l : LzLoop} (h : dstFull e l.io = false) :
    Run.Meets (stdStep e ctl l) (fun l' => l.io.KeepsFits size l'.io) := by
  unfold stdStep
  split
  · exact .bind (srcByte_meets ..) fun ⟨_, _⟩ h1 => lzEmit_keepsFits hd h1 h _
  · exact .bind (srcByte_meets ..) fun ⟨_, _⟩ h1 => .bind (srcByte_meets ..) fun ⟨_, _⟩ h2 =>
      ((h1.trans h2).keepsFits size).trans (lzCopy_keepsFits hd _ _ ⟨_, _⟩)

theorem stdFrom_meets (fuel ctl : Nat) (l : LzLoop) :
    Run.Meets (stdFrom e fuel ctl l) (fun l' => l.io.KeepsFits size l'.io) := by
  induction fuel generalizing ctl l with
  | zero => exact id
  | succ fuel ih =>
    unfold stdFrom
    split
    · exact id
    · next hroom =>
      split
      · next hb => exact (lzFlags_meets e ctl l.io).of_error hb
      · next ctl' _ io hb =>
        have hr : l.io.Reads io := (lzFlags_meets e ctl l.io).of_ok hb
        have hs := stdStep_meets hd ctl' (l := { l with io := io }) (by rw [dstFull, hr.2]; simpa [dstFull] using hroom)
        split
        · next hb => exact hs.of_error hb
        · next hb => exact (ih _ _).mono fun _ h' => ((hr.keepsFits size).trans (hs.of_ok hb)).trans h'

theorem onsStep_meets {l : LzLoop} (h : dstFull e l.io = false) :
    Run.Meets (onsStep e l) (fun l' => l.io.KeepsFits size l'.io) := by
  unfold onsStep
  refine .bind (srcBit_meets e l.io) fun ⟨b, io1⟩ h1 => ?_
  dsimp only
  split
  · exact .bind (srcBits_meets ..) fun ⟨_, _⟩ h2 => lzEmit_keepsFits hd (h1.trans h2) h _
  · exact .bind (srcBits_meets ..) fun ⟨_, _⟩ h2 => .bind (srcBits_meets ..) fun ⟨_, _⟩ h3 =>
      (((h1.trans h2).trans h3).keepsFits size).trans (lzCopy_keepsFits hd _ _ ⟨_, _⟩)

theorem onsFrom_meets (fuel : Nat) (l : LzLoop) :
    Run.Meets (onsFrom e fuel l) (fun l' => l.io.KeepsFits size l'.io) := by
  induction fuel generalizing l with
  | zero => exact id
  | succ fuel ih =>
    unfold onsFrom
    split
    · exact id
    · next hroom =>
      have hs := onsStep_meets hd (l := l) (by simpa using hroom)
      split
      · next hb => exact hs.of_error hb
      · next hb => exact (ih _).mono fun _ h' => (hs.of_ok hb).trans h'

theorem tlg5Step_meets (ctl : Nat) (l : LzLoop) :
    Run.Meets (tlg5Step e ctl l) (fun l' => l.io.KeepsFits size l'.io) := by
  unfold tlg5Step
  split
  · refine .bind (srcByte_meets ..) fun ⟨b0, io1⟩ h1 => .bind (srcByte_meets ..) fun ⟨b1, io2⟩ h2 => ?_
    dsimp only
    split
    · exact .bind (srcByte_meets ..) fun ⟨_, _⟩ h3 => (lzCopyStrict_meets hd _ _ _).mono fun _ h' =>
        (((h1.trans h2).trans h3).keepsFits size).trans h'
    · exact (lzCopyStrict_meets hd _ _ _).mono fun _ h' => ((h1.trans h2).keepsFits size).trans h'
  · split
    · exact rfl
    · next h => exact .bind (srcByte_meets ..) fun ⟨_, _⟩ h1 => lzEmit_keepsFits hd h1 (by simpa using h) _

theorem tlg5From_meets (fuel ctl : Nat) (l : LzLoop) :
    Run.Meets (tlg5From e fuel ctl l) (fun l' => l.io.KeepsFits size l'.io) := by
  induction fuel generalizing ctl l with
  | zero => exact id
  | succ fuel ih =>
    unfold tlg5From
    split
    · exact id
    · split
      · next hb => exact (lzFlags_meets e ctl l.io).of_error hb
      · next ctl' _ io hb =>
        have hr : l.io.Reads io := (lzFlags_meets e ctl l.io).of_ok hb
        have hs := tlg5Step_meets hd ctl' { l with io := io }
        split
        · exact hr.keepsFits size
        · split
          · next hb => exact hs.of_error hb
          · next hb => exact (ih _ _).mono fun _ h' => ((hr.keepsFits size).trans (hs.of_ok hb)).trans h'

theorem rcDecodeFrom_meets (g : RcCfg) (fuel : Nat) (l : RcLoop) :
    Run.Meets (rcDecodeFrom g e fuel l) (fun l' => l.io.KeepsFits size l'.io) := by
  induction fuel generalizing l with
  | zero => exact rfl
  | succ fuel ih =>
    unfold rcDecodeFrom
    have hc := rcCulshift_meets g e l.qs.lgTotf.toNat l.rc l.io
    split
    · next hb => exact hc.of_error hb
    · next t rc io hb =>
      have hr : l.io.Reads io := hc.of_ok hb
      dsimp only
      split
      · exact hr.keepsFits size
      · split
        · exact rfl
        · next hroom => exact (ih _).mono fun _ h' =>
            ((hr.keepsFits size).trans (dstPut_keepsFits hd (by simpa using hroom) _)).trans h'

end

theorem lzVariant_meets {s : State} (hd : s.dst.base.toNat + s.dst.len.toNat ≤ s.cfg.bufSize) (v : Nat) :
    Run.Meets (lzVariant s v) (fun l => s.io.KeepsFits s.cfg.bufSize l.io) := by
  unfold lzVariant
  dsimp only
  split
  · exact stdFrom_meets (e := s.env) hd _ _ _
  · split
    · exact onsFrom_meets (e := s.env) hd _ _
    · exact tlg5From_meets (e := s.env) hd _ _ _

theorem golRun_meets {e : Env} {size : Nat} (zero : Bool) (stride : Nat) {c at_ : Nat} (l : GolLoop)
    (ha : ∀ j < c, at_ + j * stride < size) :
    Run.Meets (golRun e zero stride c at_ l) (fun l' => l.io.KeepsFits size l'.io) := by
  induction c generalizing at_ l with
  | zero => exact id
  | succ c ih =>
    have h0 : at_ < size := by simpa using ha 0 (by omega)
    have hrest : ∀ j < c, at_ + stride + j * stride < size := fun j hj => by
      have := ha (j + 1) (by omega)
      rw [Nat.succ_mul] at this
      omega
    unfold golRun
    split
    · exact (ih _ hrest).mono fun _ h hf => h (hf.putByte _ h0 _)
    · have hv := golValue_meets e l.gol l.io
      split
      · next hb => exact hv.of_error hb
      · next v hb => exact (ih _ hrest).mono fun _ h hf => h (((hv.of_ok hb).keepsFits size hf).putByte _ h0 _)

theorem golRuns_meets {e : Env} {size stride count base : Nat} (ha : ∀ j < count, base + j * stride < size)
    (fuel i : Nat) (zero : Bool) (l : GolLoop) :
    Run.Meets (golRuns e stride count base fuel i zero l) (fun l' => l.io.KeepsFits size l'.io) := by
  induction fuel generalizing i zero l with
  | zero => exact id
  | succ fuel ih =>
    unfold golRuns
    have hg := runGamma_meets e l.io
    split
    · split
      · next hb => exact hg.of_error hb
      · next c _ io hb =>
        have hr : l.io.Reads io := hg.of_ok hb
        split
        · exact rfl
        · next hc =>
          have hrun := golRun_meets (e := e) (size := size) zero stride (c := c) (at_ := base + i * stride) { l with io := io }
            fun j hj => by
              have := ha (i + j) (by omega)
              rw [Nat.add_mul] at this
              omega
          split
          · next hb => exact hrun.of_error hb
          · next hb => exact (ih ..).mono fun _ h => ((hr.keepsFits size).trans (hrun.of_ok hb)).trans h
    · exact id

end Sys2Proof.Machine
end

section
/-! PROOFS. The frame of every command: what it can have changed when it ends, and how it ends. -/

namespace Sys2Proof

/-! ## Unit and operation of a command -/

/-- UNIT and OP of a command as numbers (30_encoding.md R135). -/
def Instr.cmdId (i : Instr) : CmdId :=
  match i with
  | .nop => ⟨0, 0⟩
  | .srstUnit _ => ⟨0, 1⟩
  | .brInit _ => ⟨1, 0⟩
  | .brGetbit => ⟨1, 1⟩
  | .brGetbits _ => ⟨1, 2⟩
  | .brPeekbits _ => ⟨1, 3⟩
  | .brAlign => ⟨1, 4⟩
  | .rcStart => ⟨2, 0⟩
  | .rcCulshift _ => ⟨2, 1⟩
  | .rcUpdate => ⟨2, 2⟩
  | .rcNormalize => ⟨2, 3⟩
  | .rcDecode => ⟨2, 4⟩
  | .qsInit _ => ⟨3, 0⟩
  | .qsReset => ⟨3, 1⟩
  | .qsGetsym => ⟨3, 2⟩
  | .qsGetfreq => ⟨3, 3⟩
  | .qsUpdate => ⟨3, 4⟩
  | .hufInit _ => ⟨4, 0⟩
  | .hufGetcode => ⟨4, 1⟩
  | .hufSetctx => ⟨4, 2⟩
  | .golGamma => ⟨5, 0⟩
  | .golRunlen => ⟨5, 1⟩
  | .golValue => ⟨5, 2⟩
  | .golResetctx => ⟨5, 3⟩
  | .golDecode => ⟨5, 4⟩
  | .lzInit => ⟨6, 0⟩
  | .lzDecompress _ => ⟨6, 1⟩
  | .camSetkey => ⟨7, 0⟩
  | .camDecblk => ⟨7, 1⟩
  | .camDecrange => ⟨7, 2⟩
  | .nekoSetkey64 => ⟨8, 0⟩
  | .nekoSethash => ⟨8, 1⟩
  | .nekoDecrypt => ⟨8, 2⟩
  | .xfLoadq _ => ⟨9, 0⟩
  | .xfIquant _ => ⟨9, 1⟩
  | .xfGivens _ => ⟨9, 2⟩
  | .xfIplot _ => ⟨9, 3⟩
  | .xfIlot _ => ⟨9, 4⟩
  | .xfIdct _ => ⟨9, 5⟩
  | .xfStore16 _ => ⟨9, 6⟩
  | .xfClrcarry => ⟨9, 7⟩
  | .xfLoadf _ => ⟨9, 8⟩
  | .xfStoref _ => ⟨9, 9⟩
  | .xfRestore _ => ⟨9, 10⟩

/-- An immediate of at most 24 bits leaves UNIT and OP of a word. -/
theorem wordId_or_imm {n : Nat} (w : Word) (v : BitVec n) (hn : n ≤ 24) : wordId (w ||| v.setWidth 32) = wordId w := by
  have hout : ∀ k, n ≤ k → v.getLsbD k = false := fun k hk => BitVec.getLsbD_of_ge v k hk
  have hop : (w ||| v.setWidth 32).extractLsb' 24 4 = w.extractLsb' 24 4 := by
    ext k hk
    simp [hout (24 + k) (by omega)]
  have hunit : (w ||| v.setWidth 32).extractLsb' 28 4 = w.extractLsb' 28 4 := by
    ext k hk
    simp [hout (28 + k) (by omega)]
  simp [wordId, wordUnit, wordOp, hop, hunit]

/-- A command's word carries its unit and operation: `Instr.cmdId` is what R510 takes from CMD. -/
theorem wordId_encode (i : Instr) : wordId (encode i) = i.cmdId := by
  cases i <;> simp only [encode, Instr.cmdId, wordId_or_imm, Nat.reduceLeDiff] <;> decide

theorem wordUnit_encode (i : Instr) : i.cmdId.unit = (encode i).toNat / 2 ^ 28 := by
  rw [← wordId_encode]
  simp only [wordId, wordUnit, BitVec.extractLsb'_toNat, Nat.shiftRight_eq_div_pow]
  have := (encode i).isLt
  omega

theorem wordOp_encode (i : Instr) : i.cmdId.op = (encode i).toNat / 2 ^ 24 % 16 := by
  rw [← wordId_encode]
  simp only [wordId, wordOp, BitVec.extractLsb'_toNat, Nat.shiftRight_eq_div_pow]

/-- Which units' state a command runs (10_state.md R50): its own, and no unit for the bit reads; RC_DECODE also runs QS, and
SRST_UNIT any unit. -/
def Instr.drives (i : Instr) (unit : Nat) : Bool :=
  match i with
  | .srstUnit _ => true
  | .brGetbit | .brGetbits _ | .brPeekbits _ | .brAlign => false
  | .rcDecode => unit == 2 || unit == 3
  | i => i.cmdId.unit == unit

/-- A unit that is not a command's own is not driven by it. -/
theorem drives_eq_false {i : Instr} {unit : Nat} (hs : ∀ u, i ≠ .srstUnit u) (hu : (encode i).toNat / 2 ^ 28 ≠ unit)
    (hq : unit = 3 → i ≠ .rcDecode) : i.drives unit = false := by
  rw [← wordUnit_encode] at hu
  unfold Instr.drives
  split
  · next u => exact absurd rfl (hs u)
  · rfl
  · rfl
  · rfl
  · rfl
  · simp only [Bool.or_eq_false_iff, beq_eq_false_iff_ne]
    exact ⟨hu ∘ Eq.symm, fun h => hq h rfl⟩
  · simpa using hu

/-- BR_LSB is BR_INIT's alone (R40). -/
theorem drives_br_eq_false {i : Instr} (hs : ∀ u, i ≠ .srstUnit u) (hi : ∀ l, i ≠ .brInit l) : i.drives 1 = false := by
  cases i with
  | srstUnit u => exact absurd rfl (hs u)
  | brInit l => exact absurd rfl (hi l)
  | _ => rfl

end Sys2Proof

namespace Sys2Proof.Machine

/-! ## The frame of a command -/

/-- What command `i`, started in `s`, may have changed in `u` before R510 or R512 ends it: of the registers the host writes only the
cursors (10_state.md R34), of the units those it drives (R50), BUF and the destination cursor when it stores, the source cursor when it
moves it, and the results its rule names (R35). Its stores stay inside BUF (60_exceptions.md R505). -/
structure Frame (i : Instr) (s u : State) : Prop where
  cfg : u.cfg = s.cfg
  done : u.done = s.done
  err : u.err = s.err
  ovr : u.ovr = s.ovr
  errcode : u.errcode = s.errcode
  errinfo : u.errinfo = s.errinfo
  irqen : u.irqen = s.irqen
  cmd : u.cmd = s.cmd
  args : u.args = s.args
  srcBase : u.src.base = s.src.base
  srcLen : u.src.len = s.src.len
  dstBase : u.dst.base = s.dst.base
  dstLen : u.dst.len = s.dst.len
  host : u.host = s.host
  turns : u.turns = s.turns
  seen : u.seen = s.seen
  result : namesResult i = false → u.result = s.result
  result1 : namesResult1 i = false → u.result1 = s.result1
  src : movesSource i = false → u.src = s.src
  dst : storing i = false → u.dst = s.dst
  buf : storing i = false → u.buf = s.buf
  fits : s.buf.Fits s.cfg.bufSize → u.buf.Fits s.cfg.bufSize
  lsb : i.drives 1 = false → u.lsb = s.lsb
  rc : i.drives 2 = false → u.rc = s.rc
  qs : i.drives 3 = false → u.qs = s.qs
  huf : i.drives 4 = false → u.huf = s.huf
  gol : i.drives 5 = false → u.gol = s.gol
  lz : i.drives 6 = false → u.lz = s.lz
  cam : i.drives 7 = false → u.cam = s.cam
  neko : i.drives 8 = false → u.neko = s.neko
  xf : i.drives 9 = false → u.xf = s.xf

/-- A clause of `Frame` about a command that has the permission it denies. -/
theorem Frame.of_permitted {b : Bool} {P : Prop} (h : b = true) : b = false → P := fun h' => by simp [h] at h'

namespace Frame

theorem refl {i : Instr} {s : State} : Frame i s s :=
  ⟨rfl, rfl, rfl, rfl, rfl, rfl, rfl, rfl, rfl, rfl, rfl, rfl, rfl, rfl, rfl, rfl, fun _ => rfl, fun _ => rfl, fun _ => rfl,
    fun _ => rfl, fun _ => rfl, id, fun _ => rfl, fun _ => rfl, fun _ => rfl, fun _ => rfl, fun _ => rfl, fun _ => rfl,
    fun _ => rfl, fun _ => rfl, fun _ => rfl⟩

variable {i : Instr} {s u : State} (h : Frame i s u)
include h

/-! One rule per part of the state a command can write. -/

theorem setDraws (n : Nat) : Frame i s { u with draws := n } := { h with }

theorem endDraws : Frame i s u.endDraws := h.setDraws _

theorem setTainted (b : Bool) : Frame i s { u with tainted := b } := { h with }

theorem setResult (hi : namesResult i = true) (v : Word) : Frame i s (u.setResult v) := { h with result := of_permitted hi }

theorem setResult1 (hi : namesResult1 i = true) (v : Word) : Frame i s (u.setResult1 v) := { h with result1 := of_permitted hi }

theorem setPos (hi : movesSource i = true) (p : Word) : Frame i s { u with src := { u.src with pos := p } } :=
  { h with src := of_permitted hi }

theorem setOut (hi : storing i = true) (p : Word) : Frame i s { u with dst := { u.dst with pos := p } } :=
  { h with dst := of_permitted hi }

theorem setBuf (hi : storing i = true) {buf : Store 8} (hf : u.buf.Fits s.cfg.bufSize → buf.Fits s.cfg.bufSize) :
    Frame i s { u with buf := buf } :=
  { h with buf := of_permitted hi, fits := hf ∘ h.fits }

theorem setLsb (hi : i.drives 1 = true) (b : Bool) : Frame i s { u with lsb := b } := { h with lsb := of_permitted hi }

theorem setRc (hi : i.drives 2 = true) (rc : Rc) : Frame i s { u with rc := rc } := { h with rc := of_permitted hi }

theorem setQs (hi : i.drives 3 = true) (q : Qs) : Frame i s { u with qs := q } := { h with qs := of_permitted hi }

theorem setHuf (hi : i.drives 4 = true) (x : Huf) : Frame i s { u with huf := x } := { h with huf := of_permitted hi }

theorem setGol (hi : i.drives 5 = true) (g : Gol) : Frame i s { u with gol := g } := { h with gol := of_permitted hi }

theorem setLz (hi : i.drives 6 = true) (z : Lz) : Frame i s { u with lz := z } := { h with lz := of_permitted hi }

theorem setCam (hi : i.drives 7 = true) (c : Cam) : Frame i s { u with cam := c } := { h with cam := of_permitted hi }

theorem setNeko (hi : i.drives 8 = true) (k : Neko) : Frame i s { u with neko := k } := { h with neko := of_permitted hi }

theorem setXf (hi : i.drives 9 = true) (x : Xf) : Frame i s { u with xf := x } := { h with xf := of_permitted hi }

/-- BUF and both cursors written back. -/
theorem withIo (hm : movesSource i = true) (hs : storing i = true) {io : Io}
    (hf : u.buf.Fits s.cfg.bufSize → io.buf.Fits s.cfg.bufSize) : Frame i s (u.withIo io) :=
  ((h.setBuf hs hf).setPos hm _).setOut hs _

/-- The source cursor alone written back. -/
theorem withPos (hm : movesSource i = true) (io : Io) : Frame i s (u.withPos io) := h.setPos hm _

theorem markOverlap : Frame i s u.markOverlap := h.setTainted _

/-! What an execution error loses (60_exceptions.md R511.2). -/

theorem loseSrcPos (hm : movesSource i = true) : Frame i s u.loseSrcPos := h.setPos hm _

/-- The lost destination bytes are those of the destination span. -/
theorem loseDst (hi : storing i = true)
    (hd : u.dst.base.toNat + u.dst.len.toNat ≤ s.cfg.bufSize ∧ u.dst.pos.toNat ≤ u.dst.len.toNat) : Frame i s u.loseDst :=
  (h.setBuf hi fun hf => hf.setSpan (by omega) _).setOut hi _

theorem loseBytes (hi : storing i = true) {entries : List Nat} (he : ∀ a ∈ entries, a < s.cfg.bufSize) :
    Frame i s (u.loseBytes entries) :=
  h.setBuf hi fun hf => hf.setEach he _

theorem loseRc (hi : i.drives 2 = true) : Frame i s u.loseRc := h.setRc hi _

theorem loseQs (hi : i.drives 3 = true) : Frame i s u.loseQs := h.setQs hi _

theorem loseHuf (hi : i.drives 4 = true) : Frame i s u.loseHuf := h.setHuf hi _

theorem loseGol (hi : i.drives 5 = true) : Frame i s u.loseGol := h.setGol hi _

theorem loseLz (hi : i.drives 6 = true) : Frame i s u.loseLz := h.setLz hi _

theorem loseXf (hi : i.drives 9 = true) (n : Nat) : Frame i s (u.loseXf n) := h.setXf hi _

theorem loseXt (hi : i.drives 9 = true) (n : Nat) : Frame i s (u.loseXt n) := (h.setXf hi _).endDraws

/-! Resets of units (40_sys_bitreader.md R161, R162). -/

theorem unitReset (hi : ∀ v, i.drives v = true) (v : Nat) : Frame i s (u.unitReset v) := by
  unfold State.unitReset
  split
  · exact h.setLsb (hi 1) _
  · exact h.setRc (hi 2) _
  · exact h.setQs (hi 3) _
  · exact h.setHuf (hi 4) _
  · exact h.setGol (hi 5) _
  · exact h.setLz (hi 6) _
  · exact h.setCam (hi 7) _
  · exact h.setNeko (hi 8) _
  · exact h.setXf (hi 9) _
  · exact h

theorem allUnitsReset (hi : ∀ v, i.drives v = true) : Frame i s u.allUnitsReset :=
  List.foldlRecOn [1, 2, 3, 4, 5, 6, 7, 8, 9] State.unitReset h fun _ hu v _ => hu.unitReset hi v

end Frame

end Sys2Proof.Machine
end

section
/-! PROOFS. Every command, one lemma each: it is `runCommand` under its own unit and operation, its checks and its body raise only
errors that may end a command, and what it leaves is in its frame. -/

namespace Sys2Proof.Machine

/-- Command `i` in state `s` has the shape of R500 and R511: when its checks pass, what its body answers and what an execution error
leaves are both in its frame. -/
def Framed (i : Instr) (s : State) : Prop :=
  ∃ checks body after, exec i s = runCommand s i.cmdId checks body after
    ∧ Run.Meets checks (fun _ => Run.Meets body (Frame i s) ∧ Frame i s after)

/-- A command that refuses nothing and answers at once. -/
theorem Framed.of_answer {i : Instr} {s u : State} (he : exec i s = runCommand s i.cmdId (.ok ()) (.ok u) s) (hu : Frame i s u) :
    Framed i s :=
  ⟨_, _, _, he, hu, .refl⟩

/-- A command whose frame needs nothing of its checks. -/
theorem Framed.of_body {i : Instr} {s after : State} {checks : Run Unit} {body : Run State} {P : Unit → Prop}
    (he : exec i s = runCommand s i.cmdId checks body after) (hc : Run.Meets checks P) (hb : Run.Meets body (Frame i s))
    (ha : Frame i s after) : Framed i s :=
  ⟨_, _, _, he, hc.mono fun _ _ => ⟨hb, ha⟩⟩

/-- A command with checks that answers at once. -/
theorem Framed.of_checks {i : Instr} {s u : State} {checks : Run Unit} {P : Unit → Prop}
    (he : exec i s = runCommand s i.cmdId checks (.ok u) s) (hc : Run.Meets checks P) (hu : P () → Frame i s u) : Framed i s :=
  ⟨_, _, _, he, hc.mono fun _ h => ⟨hu h, .refl⟩⟩

/-! ## SYS and BR -/

theorem nop_framed (s : State) : Framed .nop s := .of_answer rfl .refl

theorem srstUnit_framed (u : BitVec 4) (s : State) : Framed (.srstUnit u) s := by
  refine .of_checks rfl (require_meets _ rfl) fun _ => ?_
  unfold srstBody
  split
  · exact (Frame.refl.allUnitsReset fun _ => rfl).endDraws
  · exact (Frame.refl.unitReset (fun _ => rfl) _).endDraws

theorem brInit_framed (lsb : BitVec 1) (s : State) : Framed (.brInit lsb) s := .of_answer rfl (Frame.refl.setLsb rfl _)

theorem brGetbit_framed (s : State) : Framed .brGetbit s :=
  .of_body rfl (.bind (checkSrc_meets s) fun _ _ => checkBitsLeft_meets s 1)
    (.bind (srcBit_meets ..) fun ⟨_, _⟩ _ => (Frame.refl.withPos rfl _).setResult rfl _) .refl

theorem brGetbits_framed (n : BitVec 6) (s : State) : Framed (.brGetbits n) s :=
  .of_body rfl (.bind (require_meets _ rfl) fun _ _ => .bind (checkSrc_meets s) fun _ _ => checkBitsLeft_meets s _)
    (.bind (srcBits_meets ..) fun ⟨_, _⟩ _ => (Frame.refl.withPos rfl _).setResult rfl _) .refl

theorem brPeekbits_framed (n : BitVec 6) (s : State) : Framed (.brPeekbits n) s :=
  .of_checks rfl (.bind (require_meets _ rfl) fun _ _ => checkSrc_meets s) fun _ =>
    (Frame.refl.setResult rfl _).setResult1 rfl _

theorem brAlign_framed (s : State) : Framed .brAlign s :=
  .of_checks rfl (checkSrc_meets s) fun _ => (Frame.refl.withPos rfl _).setResult rfl _

/-! ## RC -/

/-- What an execution error of an RC command but RC_DECODE leaves. -/
theorem afterRcError_frame {i : Instr} {s : State} (hm : movesSource i = true) (hi : i.drives 2 = true) :
    Frame i s s.afterRcError :=
  ((Frame.refl.loseSrcPos hm).loseRc hi).endDraws

theorem rcStart_framed (s : State) : Framed .rcStart s :=
  .of_body rfl (checkSrc_meets s)
    (.bind (rcStartup_meets ..) fun ⟨_, _, _⟩ _ => ((Frame.refl.setRc rfl _).withPos rfl _).setResult rfl _)
    (afterRcError_frame rfl rfl)

theorem rcCulshift_framed (shift : BitVec 5) (s : State) : Framed (.rcCulshift shift) s :=
  .of_body rfl (.bind (requireReady_meets s _) fun _ _ => .bind (require_meets _ rfl) fun _ _ => checkSrc_meets s)
    (.bind (rcCulshift_meets ..) fun ⟨_, _, _⟩ _ => ((Frame.refl.setRc rfl _).withPos rfl _).setResult rfl _)
    (afterRcError_frame rfl rfl)

theorem rcUpdate_framed (s : State) : Framed .rcUpdate s :=
  .of_checks rfl (.bind (requireReady_meets s _) fun _ _ => require_meets _ rfl) fun _ => Frame.refl.setRc rfl _

theorem rcNormalize_framed (s : State) : Framed .rcNormalize s :=
  .of_body rfl (.bind (requireReady_meets s _) fun _ _ => checkSrc_meets s)
    (.bind (rcNormalize_meets ..) fun ⟨_, _, _⟩ _ => ((Frame.refl.setRc rfl _).withPos rfl _).setResult rfl _)
    (afterRcError_frame rfl rfl)

theorem rcDecodeBody_meets {s : State} (hd : s.dst.base.toNat + s.dst.len.toNat ≤ s.cfg.bufSize) :
    Run.Meets (rcDecodeBody s.markOverlap) (Frame .rcDecode s) := by
  have h : Frame .rcDecode s s.markOverlap := Frame.refl.markOverlap
  unfold rcDecodeBody
  split
  · exact h.setResult rfl _
  · exact .bind (rcStartup_meets ..) fun ⟨_, _, _⟩ hr =>
      .bind (rcDecodeFrom_meets (e := s.markOverlap.env) hd _ _ _) fun l hl =>
        ((((h.setRc rfl l.rc).setQs rfl l.qs).withIo rfl rfl ((hr.keepsFits _).trans hl)).setResult rfl _).setResult1 rfl _

theorem rcDecode_framed (s : State) : Framed .rcDecode s :=
  ⟨_, _, _, rfl, .bind (requireReady_meets s _) fun _ _ => .bind (checkSrc_meets s) fun _ _ =>
    (checkDst_meets s).mono fun _ hd => ⟨rcDecodeBody_meets hd.1,
      ((((Frame.refl.markOverlap.loseSrcPos rfl).loseDst rfl hd).loseRc rfl).loseQs rfl).endDraws⟩⟩

/-! ## QS and HUF -/

theorem qsInit_framed (lg : BitVec 4) (s : State) : Framed (.qsInit lg) s :=
  .of_checks rfl (.bind (require_meets _ rfl) fun _ _ => require_meets _ rfl) fun _ => Frame.refl.setQs rfl _

theorem qsReset_framed (s : State) : Framed .qsReset s :=
  .of_checks rfl (requireReady_meets s _) fun _ => Frame.refl.setQs rfl _

theorem qsGetsym_framed (s : State) : Framed .qsGetsym s :=
  .of_checks rfl (.bind (requireReady_meets s _) fun _ _ => require_meets _ rfl) fun _ => Frame.refl.setResult rfl _

theorem qsGetfreq_framed (s : State) : Framed .qsGetfreq s :=
  .of_checks rfl (.bind (requireReady_meets s _) fun _ _ => require_meets _ rfl) fun _ =>
    (Frame.refl.setResult rfl _).setResult1 rfl _

theorem qsUpdate_framed (s : State) : Framed .qsUpdate s :=
  .of_checks rfl (.bind (requireReady_meets s _) fun _ _ => require_meets _ rfl) fun _ => Frame.refl.setQs rfl _

theorem hufInit_framed (order1 : BitVec 1) (s : State) : Framed (.hufInit order1) s :=
  .of_answer rfl (Frame.refl.setHuf rfl _)

theorem hufGetcode_framed (s : State) : Framed .hufGetcode s :=
  .of_body rfl (.bind (requireReady_meets s _) fun _ _ => checkSrc_meets s)
    (.bind (hufDecodeTree_meets ..) fun ⟨_, _⟩ _ =>
      (((Frame.refl.setHuf rfl _).withPos rfl _).setResult rfl _).setResult1 rfl _)
    ((Frame.refl.loseSrcPos rfl).loseHuf rfl).endDraws

theorem hufSetctx_framed (s : State) : Framed .hufSetctx s :=
  .of_checks rfl (.bind (requireReady_meets s _) fun _ _ => require_meets _ rfl) fun _ => Frame.refl.setHuf rfl _

/-! ## GOL -/

theorem golGamma_framed (s : State) : Framed .golGamma s :=
  .of_body rfl (checkSrc_meets s)
    (.bind (eriGamma_meets ..) fun ⟨_, _, _⟩ _ => ((Frame.refl.withPos rfl _).setResult rfl _).setResult1 rfl _)
    (Frame.refl.loseSrcPos rfl).endDraws

theorem golRunlen_framed (s : State) : Framed .golRunlen s :=
  .of_body rfl (checkSrc_meets s)
    (.bind (runGamma_meets ..) fun ⟨_, _, _⟩ _ => ((Frame.refl.withPos rfl _).setResult rfl _).setResult1 rfl _)
    (Frame.refl.loseSrcPos rfl).endDraws

theorem golValue_framed (s : State) : Framed .golValue s :=
  .of_body rfl (checkSrc_meets s)
    (.bind (golValue_meets ..) fun _ _ =>
      (((Frame.refl.setGol rfl _).withPos rfl _).setResult rfl _).setResult1 rfl _)
    ((Frame.refl.loseSrcPos rfl).loseGol rfl).endDraws

theorem golResetctx_framed (s : State) : Framed .golResetctx s := .of_answer rfl (Frame.refl.setGol rfl _)

theorem golDecodeBody_meets {s u : State} (h : Frame .golDecode s u)
    (hd : ∀ j < (u.arg 0).toNat, u.golOut j < s.cfg.bufSize) : Run.Meets (golDecodeBody u) (Frame .golDecode s) := by
  have hd' : ∀ j < (u.arg 0).toNat, u.golOut 0 + j * (u.arg 1).toNat < s.cfg.bufSize := fun j hj => by
    simpa [State.golOut] using hd j hj
  unfold golDecodeBody
  split
  · exact h.setResult rfl _
  · exact .bind (srcBit_meets ..) fun ⟨_, _⟩ hr => .bind (golRuns_meets hd' _ _ _ _) fun _ hl =>
      ((h.setGol rfl _).withIo rfl rfl ((hr.keepsFits _).trans hl)).setResult rfl _

theorem golDecode_framed (s : State) : Framed .golDecode s := by
  have h : Frame .golDecode s s.markOverlap := Frame.refl.markOverlap
  refine ⟨_, _, _, rfl, (checkGolDecode_meets s).mono fun _ hd => ⟨?_, ?_⟩⟩
  · split
    · exact golDecodeBody_meets .refl hd
    · exact golDecodeBody_meets h hd
  · refine (((h.loseSrcPos rfl).loseBytes rfl fun a ha => ?_).loseGol rfl).endDraws
    obtain ⟨j, hj, rfl⟩ := List.mem_map.mp ha
    exact hd j (List.mem_range.mp hj)

/-! ## LZ -/

theorem lzInit_framed (s : State) : Framed .lzInit s :=
  .of_checks rfl (.bind (require_meets _ rfl) fun _ _ => .bind (require_meets _ rfl) fun _ _ => require_meets _ rfl) fun _ =>
    Frame.refl.setLz rfl _

theorem lzBody_meets {s : State} (hd : s.dst.base.toNat + s.dst.len.toNat ≤ s.cfg.bufSize) (variant : BitVec 4) :
    Run.Meets (lzBody s.markOverlap variant.toNat) (Frame (.lzDecompress variant) s) := by
  have h : Frame (.lzDecompress variant) s s.markOverlap := Frame.refl.markOverlap
  unfold lzBody
  split
  · exact h.setResult rfl _
  · exact .bind (lzVariant_meets (s := s.markOverlap) hd _) fun _ hl =>
      ((h.setLz rfl _).withIo rfl rfl hl).setResult rfl _

theorem lzDecompress_framed (variant : BitVec 4) (s : State) : Framed (.lzDecompress variant) s := by
  have h : Frame (.lzDecompress variant) s s.markOverlap := Frame.refl.markOverlap
  refine ⟨_, _, _, rfl, (checkLzDecompress_meets s _).mono fun _ hd => ⟨lzBody_meets hd.1 _, ?_⟩⟩
  unfold State.afterLzError
  split
  · exact ((((h.setLz rfl _).loseSrcPos rfl).loseDst rfl hd).loseLz rfl).endDraws
  · exact (((h.loseSrcPos rfl).loseDst rfl hd).loseLz rfl).endDraws

/-! ## CAM and NEKO -/

theorem camSetkey_framed (s : State) : Framed .camSetkey s := .of_answer rfl (Frame.refl.setCam rfl _)

theorem camDecblk_framed (s : State) : Framed .camDecblk s :=
  .of_checks rfl (.bind (requireReady_meets s _) fun _ _ => checkDirect_meets s _ _) fun hd =>
    Frame.refl.setBuf rfl fun hf => hf.memWriteBE _ hd _

theorem camDecrange_framed (s : State) : Framed .camDecrange s :=
  .of_checks rfl (.bind (requireReady_meets s _) fun _ _ => checkDirect_meets s _ _) fun hd =>
    (Frame.refl.setBuf rfl fun hf => camDecryptFrom_fits s _ hf hd).setResult rfl _

theorem nekoSetkey64_framed (s : State) : Framed .nekoSetkey64 s := .of_answer rfl (Frame.refl.setNeko rfl _)

theorem nekoSethash_framed (s : State) : Framed .nekoSethash s := .of_answer rfl (Frame.refl.setNeko rfl _)

theorem nekoDecrypt_framed (s : State) : Framed .nekoDecrypt s :=
  .of_checks rfl (.bind (requireReady_meets s _) fun _ _ => checkDirect_meets s _ _) fun hd =>
    ((Frame.refl.setBuf rfl fun hf => nekoDecryptFrom_fits s.taint _ hf hd).setNeko rfl _).setResult rfl _

/-! ## XF -/

theorem xfLoadq_framed (degree : BitVec 4) (s : State) : Framed (.xfLoadq degree) s :=
  .of_checks rfl (.bind (checkDegree_meets _) fun _ _ => checkDirect_meets s _ _) fun _ => Frame.refl.setXf rfl _

theorem xfIquant_framed (degree : BitVec 4) (s : State) : Framed (.xfIquant degree) s :=
  .of_checks rfl (checkDegree_meets _) fun _ => Frame.refl.setXf rfl _

theorem xfGivens_framed (degree : BitVec 4) (s : State) : Framed (.xfGivens degree) s :=
  .of_checks rfl (checkDegree_meets _) fun _ => (Frame.refl.setXf rfl _).loseXt rfl _

theorem xfIplot_framed (degree : BitVec 4) (s : State) : Framed (.xfIplot degree) s :=
  .of_checks rfl (checkDegree_meets _) fun _ => Frame.refl.setXf rfl _

theorem xfIlot_framed (degree : BitVec 4) (s : State) : Framed (.xfIlot degree) s :=
  .of_checks rfl (checkDegree_meets _) fun _ => Frame.refl.setXf rfl _

theorem xfIdct_framed (degree : BitVec 4) (s : State) : Framed (.xfIdct degree) s :=
  .of_checks rfl (checkDegree_meets _) fun _ => (Frame.refl.setXf rfl _).loseXt rfl _

theorem xfStore16_framed (degree : BitVec 4) (s : State) : Framed (.xfStore16 degree) s :=
  .of_checks rfl (.bind (checkDegree_meets _) fun _ _ => .bind (require_meets _ rfl) fun _ _ =>
    .bind (checkSamples_meets s _ _ _) fun _ hd => (checkNaN_meets s _).mono fun _ _ => hd) fun hd =>
      Frame.refl.setBuf rfl fun hf => storeSamples_fits _ _ _ _ hf (by simpa using hd)

theorem xfClrcarry_framed (s : State) : Framed .xfClrcarry s := .of_answer rfl (Frame.refl.setXf rfl _)

theorem xfLoadf_framed (degree : BitVec 4) (s : State) : Framed (.xfLoadf degree) s :=
  .of_checks rfl (.bind (checkDegree_meets _) fun _ _ => checkDirect_meets s _ _) fun _ => Frame.refl.setXf rfl _

theorem xfStoref_framed (degree : BitVec 4) (s : State) : Framed (.xfStoref degree) s :=
  .of_checks rfl (.bind (checkDegree_meets _) fun _ _ => checkDirect_meets s _ _) fun hd =>
    Frame.refl.setBuf rfl fun hf => storeFloats_fits _ _ hf (by omega)

/-- The stages of XF_RESTORE before its store write XF only. -/
theorem xfRestoreBlock_frame (degree : BitVec 4) (s : State) : Frame (.xfRestore degree) s (s.xfRestoreBlock degree) :=
  Frame.refl.setXf rfl _ |>.setXf rfl _ |>.setXf rfl _ |>.loseXt rfl _ |>.setXf rfl _ |>.setXf rfl _ |>.setXf rfl _
    |>.loseXt rfl _

theorem xfRestore_framed (degree : BitVec 4) (s : State) : Framed (.xfRestore degree) s :=
  ⟨_, _, _, rfl, .bind (checkDegree_meets _) fun _ _ => .bind (require_meets _ rfl) fun _ _ =>
    .bind (checkDirect_meets s _ _) fun _ _ => (checkSamples_meets s _ _ _).mono fun _ hd =>
      ⟨.bind (checkNaN_meets _ _) fun _ _ => (xfRestoreBlock_frame degree s).setBuf rfl fun hf =>
          storeSamples_fits _ _ _ _ hf (by simpa using hd),
        (Frame.refl.loseXf rfl _).endDraws.endDraws⟩⟩

/-! ## Every command -/

theorem exec_framed (i : Instr) (s : State) : Framed i s := by
  cases i with
  | nop => exact nop_framed s
  | srstUnit u => exact srstUnit_framed u s
  | brInit lsb => exact brInit_framed lsb s
  | brGetbit => exact brGetbit_framed s
  | brGetbits n => exact brGetbits_framed n s
  | brPeekbits n => exact brPeekbits_framed n s
  | brAlign => exact brAlign_framed s
  | rcStart => exact rcStart_framed s
  | rcCulshift shift => exact rcCulshift_framed shift s
  | rcUpdate => exact rcUpdate_framed s
  | rcNormalize => exact rcNormalize_framed s
  | rcDecode => exact rcDecode_framed s
  | qsInit lg => exact qsInit_framed lg s
  | qsReset => exact qsReset_framed s
  | qsGetsym => exact qsGetsym_framed s
  | qsGetfreq => exact qsGetfreq_framed s
  | qsUpdate => exact qsUpdate_framed s
  | hufInit order1 => exact hufInit_framed order1 s
  | hufGetcode => exact hufGetcode_framed s
  | hufSetctx => exact hufSetctx_framed s
  | golGamma => exact golGamma_framed s
  | golRunlen => exact golRunlen_framed s
  | golValue => exact golValue_framed s
  | golResetctx => exact golResetctx_framed s
  | golDecode => exact golDecode_framed s
  | lzInit => exact lzInit_framed s
  | lzDecompress variant => exact lzDecompress_framed variant s
  | camSetkey => exact camSetkey_framed s
  | camDecblk => exact camDecblk_framed s
  | camDecrange => exact camDecrange_framed s
  | nekoSetkey64 => exact nekoSetkey64_framed s
  | nekoSethash => exact nekoSethash_framed s
  | nekoDecrypt => exact nekoDecrypt_framed s
  | xfLoadq degree => exact xfLoadq_framed degree s
  | xfIquant degree => exact xfIquant_framed degree s
  | xfGivens degree => exact xfGivens_framed degree s
  | xfIplot degree => exact xfIplot_framed degree s
  | xfIlot degree => exact xfIlot_framed degree s
  | xfIdct degree => exact xfIdct_framed degree s
  | xfStore16 degree => exact xfStore16_framed degree s
  | xfClrcarry => exact xfClrcarry_framed s
  | xfLoadf degree => exact xfLoadf_framed degree s
  | xfStoref degree => exact xfStoref_framed degree s
  | xfRestore degree => exact xfRestore_framed degree s

/-- Everything a command can do: from a state in its frame it completes, or aborts with an error of its own that may end it. -/
theorem exec_ends (i : Instr) (s : State) : ∃ u, Frame i s u ∧
    (exec i s = .next u.complete ∨ ∃ r, r.err.endsCommand = true ∧ exec i s = .next (u.abort i.cmdId r)) := by
  obtain ⟨checks, body, after, he, hm⟩ := exec_framed i s
  obtain ⟨t, ht⟩ := runCommand_next s i.cmdId checks body after
  rw [he, ht]
  rcases runCommand_cases ht with ⟨r, hc, rfl⟩ | ⟨u, hc, hb, rfl⟩ | ⟨r, hc, hb, rfl⟩
  · exact ⟨s, .refl, .inr ⟨r, hm.of_error hc, rfl⟩⟩
  · exact ⟨u, (hm.of_ok hc).1.of_ok hb, .inl rfl⟩
  · exact ⟨after, (hm.of_ok hc).2, .inr ⟨r, (hm.of_ok hc).1.of_error hb, rfl⟩⟩

end Sys2Proof.Machine
end

section
/-! PROOFS. The statements about the ends of a command and its frame (60_exceptions.md R500 to R512, 10_state.md R34, R35, R50). -/

namespace Sys2Proof.Machine

/-- A command ends in one of two ways: the inversion of `exec_ends`. -/
theorem exec_cases {i : Instr} {s t : State} (h : exec i s = .next t) : ∃ u, Frame i s u ∧
    (t = u.complete ∨ ∃ r, r.err.endsCommand = true ∧ t = u.abort i.cmdId r) := by
  obtain ⟨u, hu, he | ⟨r, hr, he⟩⟩ := exec_ends i s
  · exact ⟨u, hu, .inl (Host.Outcome.next.inj (h.symm.trans he))⟩
  · exact ⟨u, hu, .inr ⟨r, hr, Host.Outcome.next.inj (h.symm.trans he)⟩⟩

/-- The error word of a command as a sum over the fields of its own word (R510). -/
theorem errWord_cmdId (i : Instr) (e : Err) :
    errWord i.cmdId e = BitVec.ofNat 32 (e.code + 256 * (encode i).toNat.shiftRight 28
      + 4096 * ((encode i).toNat.shiftRight 24 % 16)) := by
  have hu : (encode i).toNat.shiftRight 28 = i.cmdId.unit :=
    (Nat.shiftRight_eq_div_pow _ _).trans (wordUnit_encode i).symm
  have ho : (encode i).toNat.shiftRight 24 % 16 = i.cmdId.op :=
    (congrArg (· % 16) (Nat.shiftRight_eq_div_pow _ _)).trans (wordOp_encode i).symm
  have hunit : i.cmdId.unit < 16 := by
    have := (encode i).isLt
    have := wordUnit_encode i
    omega
  have hop : i.cmdId.op < 16 := wordOp_encode i ▸ Nat.mod_lt _ (by decide)
  rw [hu, ho]
  exact errWord_eq hunit hop e

/-- An engine step always answers: a word that is no command aborts. -/
theorem engineStep_next (s : State) : ∃ t, engineStep s = .next t := by
  unfold engineStep
  split
  · next i _ =>
    obtain ⟨u, -, he | ⟨r, -, he⟩⟩ := exec_ends i s
    · exact ⟨_, he⟩
    · exact ⟨_, he⟩
  · exact ⟨_, rfl⟩

/-- No step stops: neither agent's step does. -/
theorem step_safe (s : State) : SafeStep s := by
  unfold SafeStep step nextStep
  split
  · split
    · exact engineStep_next s
    · exact ⟨_, rfl⟩
  · exact ⟨_, rfl⟩
  · split
    · exact engineStep_next _
    · exact ⟨_, rfl⟩

/-- Settles O14: the frame of the command, and the two ends written out. -/
theorem everyCommandEnds : Obligations.EveryCommandEnds := by
  refine ⟨fun i s => ?_, step_safe⟩
  obtain ⟨u, hu, he | ⟨r, hr, he⟩⟩ := exec_ends i s
  · exact ⟨_, he, rfl, rfl, hu.cmd, hu.irqen, hu.ovr, hu.args, hu.srcBase, hu.srcLen, hu.dstBase, hu.dstLen, hu.cfg, hu.host,
      hu.turns, hu.seen, .inl ⟨rfl, hu.err, hu.errcode, hu.errinfo⟩⟩
  · exact ⟨_, he, rfl, rfl, hu.cmd, hu.irqen, hu.ovr, hu.args, hu.srcBase, hu.srcLen, hu.dstBase, hu.dstLen, hu.cfg, hu.host,
      hu.turns, hu.seen, .inr ⟨rfl, hu.done, rfl, rfl, r.err.code, r.err.endsCommand_iff.mp hr, errWord_cmdId i r.err⟩⟩

/-- Settles O19: the clauses of the frame on BUF, the cursors and the results; an abort has set ERR. -/
theorem frameOfNonStoringCommands : Obligations.FrameOfNonStoringCommands := by
  intro i s t h
  obtain ⟨u, hu, rfl | ⟨r, -, rfl⟩⟩ := exec_cases h
  · exact ⟨fun hs => ⟨fun a => congrArg (·.get a) (hu.buf hs), hu.dst hs⟩, hu.src, fun _ _ => ⟨hu.result, hu.result1⟩⟩
  · exact ⟨fun hs => ⟨fun a => congrArg (·.get a) (hu.buf hs), hu.dst hs⟩, hu.src, fun _ herr => nomatch herr⟩

/-- Settles O20: the clauses of the frame on the units, which both ends of a command leave alone. -/
theorem frameOfOtherUnits : Obligations.FrameOfOtherUnits := by
  intro i s t hs h
  obtain ⟨u, hu, ht⟩ := exec_cases h
  have hunits : t.lsb = u.lsb ∧ t.rc = u.rc ∧ t.qs = u.qs ∧ t.huf = u.huf ∧ t.gol = u.gol ∧ t.lz = u.lz ∧ t.cam = u.cam
      ∧ t.neko = u.neko ∧ t.xf = u.xf := by
    rcases ht with rfl | ⟨r, -, rfl⟩
    · exact ⟨rfl, rfl, rfl, rfl, rfl, rfl, rfl, rfl, rfl⟩
    · exact ⟨rfl, rfl, rfl, rfl, rfl, rfl, rfl, rfl, rfl⟩
  obtain ⟨hlsb, hrc, hqs, hhuf, hgol, hlz, hcam, hneko, hxf⟩ := hunits
  exact ⟨fun hi => hlsb.trans (hu.lsb (drives_br_eq_false hs hi)),
    fun hi => hrc.trans (hu.rc (drives_eq_false hs hi nofun)),
    fun hi hq => hqs.trans (hu.qs (drives_eq_false hs hi fun _ => hq)),
    fun hi => hhuf.trans (hu.huf (drives_eq_false hs hi nofun)),
    fun hi => hgol.trans (hu.gol (drives_eq_false hs hi nofun)),
    fun hi => hlz.trans (hu.lz (drives_eq_false hs hi nofun)),
    fun hi => hcam.trans (hu.cam (drives_eq_false hs hi nofun)),
    fun hi => hneko.trans (hu.neko (drives_eq_false hs hi nofun)),
    fun hi => hxf.trans (hu.xf (drives_eq_false hs hi nofun))⟩

/-! ## The invariant of BUF, IRQEN and the race mark -/

/-- A write to STATUS bit by bit: each W1C bit clears its flag, and ERR its error record (10_state.md R32). -/
theorem clearStatus_eq (s : State) (v : Word) : s.clearStatus v = { s with
    done := s.done && !v.getLsbD 1
    err := s.err && !v.getLsbD 2
    ovr := s.ovr && !v.getLsbD 3
    errcode := if v.getLsbD 2 then 0 else s.errcode
    errinfo := if v.getLsbD 2 then 0 else s.errinfo } := by
  unfold State.clearStatus
  cases v.getLsbD 1 <;> cases v.getLsbD 2 <;> cases v.getLsbD 3 <;> simp [State.ackErr]

namespace State.BufInv

variable {s : State} (h : s.BufInv)
include h

theorem fits : s.buf.Fits s.cfg.bufSize := ⟨h.canonical, h.inside⟩

/-- A command ends with BUF in its bounds and nothing pending (60_exceptions.md R505). -/
theorem exec {i : Instr} {t : State} (he : Machine.exec i s = .next t) : t.BufInv := by
  obtain ⟨u, hu, ht⟩ := exec_cases he
  obtain ⟨hc, hi⟩ := hu.fits h.fits
  rw [← hu.cfg] at hi
  have hirq : u.irqen &&& 0xFFFFFFF1 = 0 := hu.irqen ▸ h.irqen
  rcases ht with rfl | ⟨r, -, rfl⟩
  · exact ⟨hc, hi, hirq, nofun⟩
  · exact ⟨hc, hi, hirq, nofun⟩

theorem engineStep {t : State} (he : Machine.engineStep s = .next t) : t.BufInv := by
  unfold Machine.engineStep at he
  split at he
  · exact h.exec he
  · cases he
    exact { h with raced := nofun }

theorem setTurns (l : List Agent) : { s with turns := l }.BufInv := { h with }

theorem setHost (l : List HostOp) : { s with host := l }.BufInv := { h with }

theorem see (v : Word) : (s.see v).BufInv := { h with }

theorem endDraws : s.endDraws.BufInv := { h with }

theorem setBuf {buf : Store 8} (hf : buf.Fits s.cfg.bufSize) : { s with buf := buf }.BufInv :=
  { h with canonical := hf.1, inside := hf.2 }

/-- A race marks a pending command only. -/
theorem race : s.race.BufInv :=
  { h with raced := fun ht => (Bool.or_eq_true_iff.mp ht).elim h.raced id }

omit h in
/-- A hardware reset leaves BUF with no listed byte, IRQEN 0 and nothing pending. -/
theorem hwReset : s.hwReset.BufInv := ⟨rfl, nofun, BitVec.zero_and, nofun⟩

theorem softReset : s.softReset.BufInv := ⟨h.canonical, h.inside, BitVec.zero_and, nofun⟩

theorem clearStatus (v : Word) : (s.clearStatus v).BufInv := by
  rw [clearStatus_eq]
  exact { h with }

/-- A command is issued without the mark; with one pending only OVR changes. -/
theorem issue (cw : Word) : (s.issue cw).BufInv := by
  unfold State.issue
  split
  · exact { h with }
  · exact { h with raced := nofun }

/-- A register write keeps the invariant: IRQEN takes bits 3:1 only, an operand write may race. -/
theorem writeReg (r : Reg) (v : Word) : (s.writeReg r v).BufInv := by
  cases r with
  | ctrl =>
    simp only [State.writeReg]
    split
    · exact h.softReset
    · exact h
  | status => exact h.clearStatus v
  | irqen => exact { h with irqen := by simp [State.writeReg, irqenMask, BitVec.and_assoc] }
  | cmd => exact h.issue v
  | arg i => exact race { h with }
  | srcBase => exact race { h with }
  | srcLen => exact race { h with }
  | srcBitpos => exact race { h with }
  | dstBase => exact race { h with }
  | dstLen => exact race { h with }
  | dstPos => exact race { h with }
  | _ => exact h

theorem store (off : BitVec 8) (width : Width) (v : Word) : (s.store off width v).BufInv := by
  unfold State.store
  split
  · split
    · exact h.writeReg _ v
    · exact h
  · exact h

theorem load (off : BitVec 8) (width : Width) : (s.load off width).BufInv := by
  unfold State.load State.readReg State.racedRead
  split
  · split
    · split
      · exact h.endDraws.see _
      · exact h.see _
    · exact h.see _
  · exact h.see _

/-- A host store passes no end of BUF, raced or not (20_memory.md R102, R118). -/
theorem bufStore (addr : Word) (width : Width) (v : Word) : (s.bufStore addr width v).BufInv := by
  unfold State.bufStore
  split
  · exact h
  · next hend =>
    split
    · exact (h.setBuf (h.fits.setSpan (by omega) _)).race.endDraws
    · exact h.setBuf (h.fits.memWriteLE none (by omega) _)

theorem bufLoad (addr : Word) (width : Width) : (s.bufLoad addr width).BufInv := by
  unfold State.bufLoad
  split
  · exact h.see _
  · split
    · exact h.endDraws.see _
    · exact h.see _

theorem hostOp (op : HostOp) : (s.hostOp op).BufInv := by
  cases op with
  | st off width v => exact h.store off width v
  | ld off width => exact h.load off width
  | bufPut addr width v => exact h.bufStore addr width v
  | bufGet addr width => exact h.bufLoad addr width
  | hwReset => exact hwReset

theorem hostStep : s.hostStep.BufInv := by
  unfold State.hostStep
  split
  · exact h
  · exact (h.setHost _).hostOp _

end State.BufInv

/-- Settles O56: an engine step ends a command with its stores inside BUF, and every host operation keeps the invariant. -/
theorem stepKeepsBuf : Obligations.StepKeepsBuf := by
  intro s t h hstep
  unfold step nextStep at hstep
  split at hstep
  · split at hstep
    · exact h.engineStep hstep
    · cases hstep
      exact h.hostStep
  · cases hstep
    exact (h.setTurns _).hostStep
  · split at hstep
    · exact (h.setTurns _).engineStep hstep
    · cases hstep
      exact h.setTurns _

/-- Settles O60: after a reset BUF lists no byte and no unit is initialised. -/
theorem resetMeetsInvariants : Obligations.ResetMeetsInvariants :=
  ⟨⟨rfl, nofun, BitVec.zero_and, nofun⟩, nofun, ⟨nofun, nofun⟩, nofun⟩

end Sys2Proof.Machine
end

section
/-! PROOFS. The register window (10_state.md R31 to R34, R55): what a word access does, the packed views, the reset values. -/

namespace Sys2Proof.Machine

/-! ## Word accesses to the window -/

/-- A word load of a register while the engine is idle reads what it holds and does nothing else. -/
theorem load_word {s : State} (hb : s.busy = false) {off : BitVec 8} {r : Reg} {v : Word} (ha : off.toNat % 4 = 0)
    (hr : regAt off = some r) (hv : s.regValue r = v) : s.load off .word = s.see v := by
  simp [State.load, wordAccess, ha, hr, State.readReg, hb, hv]

/-- A word store to a register. -/
theorem store_word {off : BitVec 8} {r : Reg} (ha : off.toNat % 4 = 0) (hr : regAt off = some r) (s : State) (v : Word) :
    s.store off .word v = s.writeReg r v := by
  simp [State.store, wordAccess, ha, hr]

/-- A reserved offset reads 0 and ignores writes. -/
theorem access_reserved {off : BitVec 8} (hr : regAt off = none) (s : State) (width : Width) :
    s.load off width = s.see 0 ∧ ∀ v, s.store off width v = s := by
  simp [State.load, State.store, hr]

/-- The registers that ignore writes (R31): identification, the error record, the results and the unit registers. -/
def Reg.readOnly (r : Reg) : Bool :=
  match r with
  | .ctrl | .status | .irqen | .cmd | .arg _ | .srcBase | .srcLen | .srcBitpos | .dstBase | .dstLen | .dstPos => false
  | _ => true

theorem writeReg_readOnly {r : Reg} (h : r.readOnly = true) (s : State) (v : Word) : s.writeReg r v = s := by
  cases r with
  | ctrl | status | irqen | cmd | arg | srcBase | srcLen | srcBitpos | dstBase | dstLen | dstPos => simp [Reg.readOnly] at h
  | _ => rfl

/-- An offset with no writable register ignores writes. -/
theorem store_ignored {off : BitVec 8} (h : ∀ r ∈ regAt off, r.readOnly = true) (s : State) (v : Word) :
    s.store off .word v = s := by
  unfold State.store
  split
  · split
    · next r hr => exact writeReg_readOnly (h r hr) s v
    · rfl
  · rfl

/-- With no command pending a write to an operand register is no race. -/
theorem race_idle {s : State} (hb : s.busy = false) : s.race = s := by
  have ht : (s.tainted || s.busy) = s.tainted := by simp [hb]
  unfold State.race
  rw [ht]

/-! ## The map of the window -/

theorem regAt_arg (i : Fin 8) : regAt (BitVec.ofNat 8 (0x40 + 4 * i.val)) = some (.arg i) := by
  revert i; decide

theorem arg_aligned (i : Fin 8) : (BitVec.ofNat 8 (0x40 + 4 * i.val)).toNat % 4 = 0 := by
  revert i; decide

theorem regAt_reserved : ∀ off : BitVec 8, (0x24 ≤ off ∧ off < 0x40) ∨ off = 0x6C ∨ off = 0x7C ∨ 0xBC ≤ off → regAt off = none := by
  decide

theorem regAt_readOnly : ∀ off : BitVec 8, off = 0x00 ∨ off = 0x0C ∨ off = 0x10 ∨ off = 0x1C ∨ off = 0x20 ∨ 0x80 ≤ off →
    ∀ r ∈ regAt off, r.readOnly = true := by
  decide

/-! ## Packed views -/

/-- Two halves of a word, packed as R31 packs them. -/
theorem pack_halves (hi lo : BitVec 16) : lo.setWidth 32 ||| (hi.setWidth 32 <<< 16) = hi ++ lo := by
  rw [BitVec.append_def, BitVec.shiftLeftZeroExtend_eq, BitVec.setWidth'_eq]
  exact BitVec.or_comm ..

/-- A field of at most 16 bits widened in two steps. -/
theorem widen_twice {n : Nat} (hn : n ≤ 16) (x : BitVec n) : (x.setWidth 16).setWidth 32 = x.setWidth 32 := by
  ext k hk
  by_cases h : k < 16
  · simp [h]
  · simp [h, BitVec.getLsbD_of_ge x k (by omega)]

/-- The upper half of a word shifted out leaves its lower half. -/
theorem low_half_shifted (x : Word) : (x.setWidth 16).setWidth 32 <<< 16 = x <<< 16 := by
  ext k hk
  simp [show k - 16 < 16 by omega, BitVec.getLsbD_eq_getElem (show k - 16 < 32 by omega)]

theorem qsCfgWord_eq (s : State) : s.qsCfgWord = s.qs.target ++ s.qs.lgTotf.setWidth 16 := by
  rw [← pack_halves, widen_twice (by decide)]
  rfl

theorem qsCntWord_eq (s : State) : s.qsCntWord = s.qs.nextleft ++ s.qs.left := pack_halves _ _

theorem qsRateWord_eq (s : State) : s.qsRateWord = s.qs.rescale.setWidth 16 ++ s.qs.incr := by
  rw [← pack_halves, low_half_shifted]
  rfl

theorem lzCfgWord_eq (s : State) : s.lzCfgWord = s.lz.fill.setWidth 16 ++ s.lz.w.setWidth 16 := by
  rw [← pack_halves, widen_twice (by decide), widen_twice (by decide)]
  rfl

theorem nekoKeyLo_eq (key : BitVec 64) : key.extractLsb' 0 32 = key.setWidth 32 :=
  (BitVec.setWidth_eq_extractLsb' (by decide)).symm

theorem nekoKeyHi_eq (key : BitVec 64) : key.extractLsb' 32 32 = (key >>> 32).setWidth 32 := by
  ext k hk
  simp

/-- STATUS as a sum of its flags. -/
theorem statusWord_toNat (s : State) : s.statusWord.toNat =
    (if s.busy then 1 else 0) + (if s.done then 2 else 0) + (if s.err then 4 else 0) + (if s.ovr then 8 else 0) := by
  have h : ∀ a b c d : Bool, (flagAt a 0 ||| flagAt b 1 ||| flagAt c 2 ||| flagAt d 3).toNat =
      (if a then 1 else 0) + (if b then 2 else 0) + (if c then 4 else 0) + (if d then 8 else 0) := by decide
  exact h ..

theorem rcState_code_lt (st : RcState) : st.code < 3 := by cases st <;> decide

/-- UNITSTAT as a sum of its flags and the code of RC_STATE. -/
theorem unitstat_toNat (s : State) : s.unitstat.toNat =
    (if s.qs.valid then 1 else 0) + (if s.huf.valid then 2 else 0) + (if s.huf.order1 then 4 else 0)
      + (if s.lz.valid then 8 else 0) + (if s.cam.keyed then 16 else 0) + (if s.neko.keyed then 32 else 0)
      + (if s.lsb then 64 else 0) + 256 * s.rc.st.code := by
  have h : ∀ (a b c d e f g : Bool) (n : Fin 3), (flagAt a 0 ||| flagAt b 1 ||| flagAt c 2 ||| flagAt d 3 ||| flagAt e 4
      ||| flagAt f 5 ||| flagAt g 6 ||| BitVec.ofNat 32 (n.val <<< 8)).toNat =
      (if a then 1 else 0) + (if b then 2 else 0) + (if c then 4 else 0) + (if d then 8 else 0) + (if e then 16 else 0)
      + (if f then 32 else 0) + (if g then 64 else 0) + 256 * n.val := by decide
  exact h _ _ _ _ _ _ _ ⟨s.rc.st.code, rcState_code_lt _⟩

/-! ## The statements -/

/-- Settles O8: the map of the window with what a word access to a register does. -/
theorem registerWindow : Obligations.RegisterWindow := by
  intro s hb
  refine ⟨?reads, fun i => load_word hb (arg_aligned i) (regAt_arg i) rfl,
    fun off ho => access_reserved (regAt_reserved off ho) s .word, fun off ho v => store_ignored (regAt_readOnly off ho) s v,
    fun i v => (store_word (arg_aligned i) (regAt_arg i) s v).trans (race_idle hb),
    fun v => ⟨?srcBase, ?srcLen, ?srcPos, ?dstBase, ?dstLen, ?dstPos⟩, statusWord_toNat s, ?unitstat⟩
  case srcBase => exact (store_word (r := .srcBase) rfl rfl s v).trans (race_idle hb)
  case srcLen => exact (store_word (r := .srcLen) rfl rfl s v).trans (race_idle hb)
  case srcPos => exact (store_word (r := .srcBitpos) rfl rfl s v).trans (race_idle hb)
  case dstBase => exact (store_word (r := .dstBase) rfl rfl s v).trans (race_idle hb)
  case dstLen => exact (store_word (r := .dstLen) rfl rfl s v).trans (race_idle hb)
  case dstPos => exact (store_word (r := .dstPos) rfl rfl s v).trans (race_idle hb)
  case unitstat =>
    rw [unitstat_toNat]
    cases s.rc.st <;> rfl
  case reads =>
    intro off v hmem
    rw [← qsCfgWord_eq, ← qsCntWord_eq, ← qsRateWord_eq, ← lzCfgWord_eq, ← nekoKeyLo_eq, ← nekoKeyHi_eq] at hmem
    simp only [List.mem_cons, Prod.mk.injEq, List.not_mem_nil, or_false] at hmem
    rcases hmem with ⟨rfl, rfl⟩ | ⟨rfl, rfl⟩ | ⟨rfl, rfl⟩ | ⟨rfl, rfl⟩ | ⟨rfl, rfl⟩ | ⟨rfl, rfl⟩ | ⟨rfl, rfl⟩ | ⟨rfl, rfl⟩
      | ⟨rfl, rfl⟩ | ⟨rfl, rfl⟩ | ⟨rfl, rfl⟩ | ⟨rfl, rfl⟩ | ⟨rfl, rfl⟩ | ⟨rfl, rfl⟩ | ⟨rfl, rfl⟩ | ⟨rfl, rfl⟩ | ⟨rfl, rfl⟩
      | ⟨rfl, rfl⟩ | ⟨rfl, rfl⟩ | ⟨rfl, rfl⟩ | ⟨rfl, rfl⟩ | ⟨rfl, rfl⟩ | ⟨rfl, rfl⟩ | ⟨rfl, rfl⟩ | ⟨rfl, rfl⟩ | ⟨rfl, rfl⟩
      | ⟨rfl, rfl⟩ | ⟨rfl, rfl⟩ | ⟨rfl, rfl⟩ | ⟨rfl, rfl⟩
    all_goals exact load_word hb rfl rfl rfl

/-- Settles O9: the writes to STATUS and IRQEN, and IRQ read off its definition. -/
theorem statusWriteAndIrq : Obligations.StatusWriteAndIrq := by
  intro s v
  refine ⟨(store_word (r := .status) rfl rfl s v).trans (clearStatus_eq s v), store_word (r := .irqen) rfl rfl s v, ?_⟩
  simp [State.irq, or_assoc]

/-- A hardware reset leaves every register at its reset value (R31, R55). -/
theorem regValue_reset (r : Reg) : State.reset.regValue r = if r = .id then 0x44450001 else if r = .golN then 3 else 0 := by
  cases r with
  | arg i => simp [State.regValue, State.reset]
  | _ => rfl

theorem regValue_hwReset (s : State) (r : Reg) : s.hwReset.regValue r = State.reset.regValue r := by
  cases r <;> rfl

theorem irq_of_irqen_zero {s : State} (h : s.irqen = 0) : s.irq = false := by simp [State.irq, h]

/-- Settles O10: the model's start, and a hardware reset from any state, which shows the same registers. -/
theorem resetValues : Obligations.ResetValues := by
  rintro s t (rfl | rfl)
  · exact ⟨regValue_reset, rfl, irq_of_irqen_zero rfl, rfl, rfl, rfl, rfl, fun _ => rfl⟩
  · exact ⟨fun r => (regValue_hwReset s r).trans (regValue_reset r), rfl, irq_of_irqen_zero rfl, rfl, rfl, rfl, rfl, fun _ => rfl⟩

end Sys2Proof.Machine
end

section
/-! PROOFS. The host's accesses (20_memory.md R102, R103): narrow or unaligned ones, and BUF through its window. -/

namespace Sys2Proof.Machine

/-! ## Narrow and unaligned accesses -/

theorem wordAccess_eq_false {off : BitVec 8} {width : Width} (h : width ≠ .word ∨ off.toNat % 4 ≠ 0) :
    wordAccess off width = false := by
  rcases h with h | h <;> simp [wordAccess, h]

/-- Settles O7: such an access does not reach the window. -/
theorem narrowOrUnalignedAccessIgnored : Obligations.NarrowOrUnalignedAccessIgnored := by
  intro s off width v h
  have hw := wordAccess_eq_false h
  exact ⟨by simp [State.store, hw], by simp [State.load, hw, State.see]⟩

/-! ## Little-endian bytes (R105) -/

/-- The first `n` bytes of a value, little-endian, are the value modulo `256 ^ n`. -/
theorem leNat_leBytes (v n : Nat) : leNat ((List.range n).map (leByte v)) = v % 256 ^ n := by
  induction n generalizing v with
  | zero => simp [leNat, Nat.mod_one]
  | succ n ih =>
    have htail : (leByte v ∘ Nat.succ) = leByte (v / 256) := by
      funext i
      simp [leByte, Nat.pow_succ', Nat.div_div_eq_div_mul]
    rw [List.range_succ_eq_map, List.map_cons, List.map_map, htail, leNat, ih, Nat.pow_succ', Nat.mod_mul]
    simp [leByte]

/-- A little-endian write reads back byte by byte. -/
theorem memRead_memWriteLE (buf : Store 8) (addr n v : Nat) :
    memRead (memWriteLE none buf addr n v) addr n = (List.range n).map (leByte v) := by
  refine List.map_congr_left fun i hi => ?_
  have := List.mem_range.mp hi
  rw [memWriteLE_get, if_pos (by omega), Nat.add_sub_cancel_left]

/-! ## BUF through its window -/

/-- A host access past the end of BUF. -/
theorem bufAccess_past_end {s : State} {addr : Word} {width : Width} (h : s.cfg.bufSize < addr.toNat + width.bytes) :
    (∀ v, s.bufStore addr width v = s) ∧ s.bufLoad addr width = s.see 0 :=
  ⟨fun _ => if_pos h, if_pos h⟩

/-- A host store inside BUF with no command pending. -/
theorem bufStore_idle {s : State} (hb : s.busy = false) {addr : Word} {width : Width}
    (h : addr.toNat + width.bytes ≤ s.cfg.bufSize) (v : Word) :
    s.bufStore addr width v = { s with buf := memWriteLE none s.buf addr.toNat width.bytes v.toNat } := by
  simp [State.bufStore, Nat.not_lt.mpr h, hb]

/-- A host load inside BUF with no command pending. -/
theorem bufLoad_idle {s : State} (hb : s.busy = false) {addr : Word} {width : Width}
    (h : addr.toNat + width.bytes ≤ s.cfg.bufSize) :
    s.bufLoad addr width = s.see (wordOf (leNat (memRead s.buf addr.toNat width.bytes))) := by
  simp [State.bufLoad, Nat.not_lt.mpr h, hb]

/-- Settles O12: a little-endian write reads back, byte by byte and as a value. -/
theorem hostBufAccess : Obligations.HostBufAccess := by
  intro s addr width v hb
  refine ⟨fun h => ?_, fun h => ⟨(bufAccess_past_end h).1 v, by rw [(bufAccess_past_end h).2, State.see_seen]⟩⟩
  rw [bufStore_idle hb h]
  refine ⟨?_, fun j hj => ?_, fun a ha => memWriteLE_get_out ha⟩
  · rw [bufLoad_idle (s := { s with buf := memWriteLE none s.buf addr.toNat width.bytes v.toNat }) hb h, State.see_seen,
      memRead_memWriteLE, leNat_leBytes, wordOf]
  · rw [memWriteLE_get, if_pos (by omega), Nat.add_sub_cancel_left, leByte]

/-! ## Races with a pending command (R118, 70_reset_and_hazards.md R550) -/

/-- The registers that hold a command's operands (10_state.md R34). -/
def Reg.operand (r : Reg) : Bool :=
  match r with
  | .arg _ | .srcBase | .srcLen | .srcBitpos | .dstBase | .dstLen | .dstPos => true
  | _ => false

theorem regAt_operand : ∀ off : BitVec 8, off.toNat % 4 = 0 →
    (0x40 ≤ off ∧ off < 0x6C) ∨ (0x70 ≤ off ∧ off < 0x7C) → ∃ r ∈ regAt off, r.operand = true := by
  decide

/-- A write to an operand register while a command is pending races with it. -/
theorem writeReg_operand {r : Reg} (hr : r.operand = true) {s : State} (hb : s.busy = true) (v : Word) :
    (s.writeReg r v).tainted = true := by
  cases r with
  | arg | srcBase | srcLen | srcBitpos | dstBase | dstLen | dstPos => simp [State.writeReg, State.race, hb]
  | _ => simp [Reg.operand] at hr

/-- A host store inside BUF while a command is pending: it races, and its bytes are free. -/
theorem bufStore_raced {s : State} (hb : s.busy = true) {addr : Word} {width : Width}
    (h : addr.toNat + width.bytes ≤ s.cfg.bufSize) (v : Word) :
    s.bufStore addr width v = { s with
      buf := s.buf.setSpan addr.toNat width.bytes (fun a => Config.freeBits 8 s.draws a) }.race.endDraws := by
  simp [State.bufStore, Nat.not_lt.mpr h, hb]

/-- A host load inside BUF while a command is pending reads a free value. -/
theorem bufLoad_raced {s : State} (hb : s.busy = true) {addr : Word} {width : Width}
    (h : addr.toNat + width.bytes ≤ s.cfg.bufSize) :
    s.bufLoad addr width =
      s.endDraws.see (wordOf (leNat ((List.range width.bytes).map (Config.freeBits 8 s.draws)))) := by
  simp [State.bufLoad, Nat.not_lt.mpr h, hb]

theorem regAt_racy : ∀ off : BitVec 8, ∀ r ∈ regAt off, off.toNat % 4 = 0
    ∧ ((0x0C ≤ off ∧ off < 0x14) ∨ (0x1C ≤ off ∧ off < 0x24) ∨ 0x80 ≤ off → r.racy = true)
    ∧ (off < 0x0C ∨ (0x14 ≤ off ∧ off < 0x1C) ∨ (0x24 ≤ off ∧ off < 0x80) → r.racy = false) := by
  decide

/-- A word load of a register, a command pending or not. -/
theorem load_word_readReg {off : BitVec 8} {r : Reg} (ha : off.toNat % 4 = 0) (hr : regAt off = some r) (s : State) :
    s.load off .word = s.readReg r := by
  simp [State.load, wordAccess, ha, hr]

theorem readReg_racy {s : State} (hb : s.busy = true) {r : Reg} (hr : r.racy = true) : s.readReg r = s.racedRead r := by
  simp [State.readReg, hb, hr]

theorem readReg_own {s : State} {r : Reg} (hr : r.racy = false) : s.readReg r = s.see (s.regValue r) := by
  simp [State.readReg, hr]

/-- No register shows the draw counter. -/
theorem regValue_endDraws (s : State) (r : Reg) : s.endDraws.regValue r = s.regValue r := by cases r <;> rfl

/-- A raced read shows the value before the engine step or after it (R550 d; log 16). -/
theorem racedRead_value (s : State) (r : Reg) : ∃ v, s.racedRead r = s.endDraws.see v
    ∧ (v = s.regValue r ∨ ∃ t, engineStep s.endDraws = .next t ∧ v = t.regValue r) := by
  refine ⟨_, rfl, ?_⟩
  split
  · exact .inl (regValue_endDraws s r)
  · obtain ⟨t, ht⟩ := engineStep_next s.endDraws
    exact .inr ⟨t, ht, by rw [engineAfter, ht]⟩

end Sys2Proof.Machine
end

section
/-! PROOFS. The checks before a command's first change (20_memory.md R104, 60_exceptions.md R515): spans and operands. -/

namespace Sys2Proof.Machine

/-! ## What each check answers -/

theorem srcInBounds_iff {s : State} : s.srcInBounds = true ↔
    s.src.base.toNat + s.src.len.toNat ≤ s.cfg.bufSize ∧ s.src.pos.toNat ≤ 8 * s.src.len.toNat := by
  simp [State.srcInBounds]

theorem dstInBounds_iff {s : State} : s.dstInBounds = true ↔
    s.dst.base.toNat + s.dst.len.toNat ≤ s.cfg.bufSize ∧ s.dst.pos.toNat ≤ s.dst.len.toNat := by
  simp [State.dstInBounds]

section

variable {s : State}

theorem checkSrc_ok (h : s.srcInBounds = true) : s.checkSrc = .ok () := require_ok.mpr h

theorem checkSrc_error (h : s.srcInBounds = false) : s.checkSrc = .error ⟨.outOfBounds, s.src.base⟩ :=
  require_error.mpr ⟨h, rfl⟩

theorem checkDst_ok (h : s.dstInBounds = true) : s.checkDst = .ok () := require_ok.mpr h

theorem checkDst_error (h : s.dstInBounds = false) : s.checkDst = .error ⟨.outOfBounds, s.dst.base⟩ :=
  require_error.mpr ⟨h, rfl⟩

theorem requireReady_ok {c : Bool} (h : c = true) : s.requireReady c = .ok () := require_ok.mpr h

theorem requireDecoding_ok (h : s.rc.st = .decoding) : s.requireDecoding = .ok () := requireReady_ok (by simp [h])

theorem checkSymbol_error (h : 256 < (s.arg 0).toNat) : s.checkSymbol = .error ⟨.badOperand, s.arg 0⟩ :=
  require_error.mpr ⟨by simpa using h, rfl⟩

/-- The checks of LZ_DECOMPRESS that come before the spans, for the variants there are (44_lzss.md R347). -/
theorem checkLzDecompress_spans {v : Nat} (hv : v ≤ 2) (hready : v ≠ 1 → s.lz.valid = true) (hw : v = 2 → s.lz.w = 4096) :
    s.checkLzDecompress v = (do s.checkSrc; s.checkDst) := by
  have h1 : s.requireReady (v == 1 || s.lz.valid) = .ok () := requireReady_ok (by
    by_cases h : v = 1 <;> simp [h, hready])
  have h2 : s.requireReady (v != 2 || s.lz.w == 4096) = .ok () := requireReady_ok (by
    by_cases h : v = 2 <;> simp [h, hw])
  have h3 : decide (v ≤ 4) = true := by simp; omega
  have h4 : (decide (v ≠ 3) && decide (v ≠ 4)) = true := by simp; omega
  rw [State.checkLzDecompress, h1, h2, h3, h4]
  rfl

/-- The checks of GOL_DECODE with a count and a stride (43_golomb_gamma.md R320). -/
theorem checkGolDecode_spans (h0 : s.arg 0 ≠ 0) (h1 : s.arg 1 ≠ 0) :
    s.checkGolDecode = (do
      s.checkSrc
      s.checkDst
      require (decide (s.dst.pos.toNat + ((s.arg 0).toNat - 1) * (s.arg 1).toNat < s.dst.len.toNat)) .outOfBounds s.dst.base) := by
  have h : (s.arg 1 != 0) = true := by simpa using h1
  rw [State.checkGolDecode, if_neg h0, h]
  rfl

theorem checkGolDecode_stride (h0 : s.arg 0 ≠ 0) (h1 : s.arg 1 = 0) : s.checkGolDecode = .error ⟨.badOperand, 0⟩ := by
  rw [State.checkGolDecode, if_neg h0, h1]
  rfl

end

/-! ## The refusals -/

theorem cmdId_lt (i : Instr) : i.cmdId.unit < 16 ∧ i.cmdId.op < 16 := by
  have hu := wordUnit_encode i
  have := (encode i).isLt
  exact ⟨by omega, wordOp_encode i ▸ Nat.mod_lt _ (by decide)⟩

/-- A command that fails a check aborts with its error and changes nothing else. -/
theorem refused_of_check {i : Instr} {s after : State} {checks : Run Unit} {body : Run State} (r : Raise)
    (he : exec i s = runCommand s i.cmdId checks body after) (hc : checks = .error r) :
    exec i s = .next (s.aborted i.cmdId.unit i.cmdId.op r.err.code r.info) :=
  aborted_of_check (cmdId_lt i).1 (cmdId_lt i).2 he hc

/-- A source outside BUF, or a cursor past it, is refused by every ready command that reads it. -/
theorem badSource_refused {s : State} (h : s.srcInBounds = false) :
    exec .rcStart s = .next (s.aborted 2 0 6 s.src.base) ∧ exec .golGamma s = .next (s.aborted 5 0 6 s.src.base)
    ∧ exec .golRunlen s = .next (s.aborted 5 1 6 s.src.base) ∧ exec .golValue s = .next (s.aborted 5 2 6 s.src.base)
    ∧ exec (.lzDecompress 1) s = .next (s.aborted 6 1 6 s.src.base)
    ∧ exec .brGetbit s = .next (s.aborted 1 1 6 s.src.base)
    ∧ (s.lz.valid = true → exec (.lzDecompress 0) s = .next (s.aborted 6 1 6 s.src.base))
    ∧ (s.lz.valid = true → s.lz.w = 4096 → exec (.lzDecompress 2) s = .next (s.aborted 6 1 6 s.src.base))
    ∧ (s.rc.st = .decoding → exec .rcNormalize s = .next (s.aborted 2 3 6 s.src.base)
      ∧ ∀ shift : BitVec 5, 1 ≤ shift.toNat → shift.toNat ≤ 16 →
        exec (.rcCulshift shift) s = .next (s.aborted 2 1 6 s.src.base))
    ∧ (s.qs.valid = true → exec .rcDecode s = .next (s.aborted 2 4 6 s.src.base))
    ∧ (s.huf.valid = true → exec .hufGetcode s = .next (s.aborted 4 1 6 s.src.base))
    ∧ (s.arg 0 ≠ 0 → s.arg 1 ≠ 0 → exec .golDecode s = .next (s.aborted 5 4 6 s.src.base)) := by
  have hc := checkSrc_error h
  have hlz : ∀ v : BitVec 4, v.toNat ≤ 2 → (v.toNat ≠ 1 → s.lz.valid = true) → (v.toNat = 2 → s.lz.w = 4096) →
      exec (.lzDecompress v) s = .next (s.aborted 6 1 6 s.src.base) := fun v hv hr hw =>
    refused_of_check ⟨.outOfBounds, _⟩ rfl (by rw [checkLzDecompress_spans hv hr hw, hc]; rfl)
  refine ⟨refused_of_check ⟨.outOfBounds, _⟩ rfl hc, refused_of_check ⟨.outOfBounds, _⟩ rfl hc,
    refused_of_check ⟨.outOfBounds, _⟩ rfl hc, refused_of_check ⟨.outOfBounds, _⟩ rfl hc,
    hlz 1 (by decide) nofun nofun, ?brGetbit, fun hr => hlz 0 (by decide) (fun _ => hr) nofun,
    fun hr hw => hlz 2 (by decide) (fun _ => hr) (fun _ => hw), fun hd => ⟨?rcNormalize, fun shift h1 h16 => ?rcCulshift⟩,
    fun hv => ?rcDecode, fun hv => ?hufGetcode, fun h0 h1 => ?golDecode⟩
  all_goals refine refused_of_check ⟨.outOfBounds, _⟩ rfl ?_
  case brGetbit => rw [hc]; rfl
  case rcNormalize => rw [requireDecoding_ok hd, hc]; rfl
  case rcCulshift => rw [requireDecoding_ok hd, hc]; simp [h1, h16]
  case rcDecode => rw [requireReady_ok hv, hc]; rfl
  case hufGetcode => rw [State.checkHufGetcode, requireReady_ok hv, hc]; rfl
  case golDecode => rw [checkGolDecode_spans h0 h1, hc]; rfl

/-- A destination outside BUF, or a cursor past it, is refused after the source has passed. -/
theorem badDestination_refused {s : State} (hs : s.srcInBounds = true) (h : s.dstInBounds = false) :
    exec (.lzDecompress 1) s = .next (s.aborted 6 1 6 s.dst.base)
    ∧ (s.lz.valid = true → exec (.lzDecompress 0) s = .next (s.aborted 6 1 6 s.dst.base))
    ∧ (s.lz.valid = true → s.lz.w = 4096 → exec (.lzDecompress 2) s = .next (s.aborted 6 1 6 s.dst.base))
    ∧ (s.qs.valid = true → exec .rcDecode s = .next (s.aborted 2 4 6 s.dst.base))
    ∧ (s.arg 0 ≠ 0 → s.arg 1 ≠ 0 → exec .golDecode s = .next (s.aborted 5 4 6 s.dst.base)) := by
  have hc := checkSrc_ok hs
  have hd := checkDst_error h
  have hlz : ∀ v : BitVec 4, v.toNat ≤ 2 → (v.toNat ≠ 1 → s.lz.valid = true) → (v.toNat = 2 → s.lz.w = 4096) →
      exec (.lzDecompress v) s = .next (s.aborted 6 1 6 s.dst.base) := fun v hv hr hw =>
    refused_of_check ⟨.outOfBounds, _⟩ rfl (by rw [checkLzDecompress_spans hv hr hw, hc, hd]; rfl)
  refine ⟨hlz 1 (by decide) nofun nofun, fun hr => hlz 0 (by decide) (fun _ => hr) nofun,
    fun hr hw => hlz 2 (by decide) (fun _ => hr) (fun _ => hw), fun hv => ?rcDecode, fun h0 h1 => ?golDecode⟩
  all_goals refine refused_of_check ⟨.outOfBounds, _⟩ rfl ?_
  case rcDecode => rw [requireReady_ok hv, hc, hd]; rfl
  case golDecode => rw [checkGolDecode_spans h0 h1, hc, hd]; rfl

/-- Settles O17: what each check answers, put before the command it guards. -/
theorem badSpanOrOperandIsRefused : Obligations.BadSpanOrOperandIsRefused := by
  intro s
  refine ⟨srcInBounds_iff, dstInBounds_iff, badSource_refused, badDestination_refused, fun hs hd h0 h1 hend => ?lastOutput,
    fun shift hst hsh => ?shift, fun h0 h1 => ?stride, fun hv hsym => ⟨?getfreq, ?update⟩⟩
  case lastOutput =>
    refine refused_of_check ⟨.outOfBounds, s.dst.base⟩ rfl ?_
    rw [checkGolDecode_spans h0 h1, checkSrc_ok hs, checkDst_ok hd]
    exact require_error.mpr ⟨by simpa using hend, rfl⟩
  case shift =>
    have hbad : (decide (1 ≤ shift.toNat) && decide (shift.toNat ≤ 16)) = false := by
      rcases hsh with rfl | hsh
      · rfl
      · simp; omega
    refine refused_of_check ⟨.badOperand, immWord shift⟩ rfl ?_
    rw [requireDecoding_ok hst, hbad]
    rfl
  case stride =>
    exact refused_of_check ⟨.badOperand, 0⟩ rfl (checkGolDecode_stride h0 h1)
  case getfreq =>
    refine refused_of_check ⟨.badOperand, s.arg 0⟩ (show execQsGetfreq s = _ from rfl) ?_
    rw [requireReady_ok hv, checkSymbol_error hsym]
    rfl
  case update =>
    refine refused_of_check ⟨.badOperand, s.arg 0⟩ (show execQsUpdate s = _ from rfl) ?_
    rw [requireReady_ok hv, checkSymbol_error hsym]
    rfl

end Sys2Proof.Machine
end

section
/-! PROOFS. The source as bits (20_memory.md R106, R107): the value of a field, and the commands of the bit reader. -/

namespace Sys2Proof.Machine

/-! ## The value of a field -/

/-- A field without its first bit. -/
theorem fieldValue_succ (lsb : Bool) (n : Nat) (f : Nat → Nat) : fieldValue lsb (n + 1) f =
    if lsb then f 0 + 2 * fieldValue lsb n (fun i => f (i + 1)) else f 0 * 2 ^ n + fieldValue lsb n (fun i => f (i + 1)) := by
  unfold fieldValue
  rw [List.range_succ_eq_map, List.map_cons, List.map_map, List.sum_cons]
  cases lsb with
  | true =>
    rw [if_pos rfl, ← List.sum_map_mul_left]
    simp [Function.comp_def, Nat.pow_succ, Nat.mul_comm, Nat.mul_left_comm]
  | false =>
    have hexp : ∀ i, n + 1 - 1 - Nat.succ i = n - 1 - i := by omega
    simp [Function.comp_def, Nat.sub_sub, Nat.add_comm 1]

theorem fieldValue_congr {lsb : Bool} {n : Nat} {f g : Nat → Nat} (h : ∀ i < n, f i = g i) :
    fieldValue lsb n f = fieldValue lsb n g :=
  congrArg List.sum (List.map_congr_left fun i hi => by rw [h i (List.mem_range.mp hi)])

theorem fieldValue_lt (lsb : Bool) (n : Nat) {f : Nat → Nat} (hf : ∀ i < n, f i ≤ 1) : fieldValue lsb n f < 2 ^ n := by
  induction n generalizing f with
  | zero => simp [fieldValue]
  | succ n ih =>
    have h0 := hf 0 (by omega)
    have hrest := ih (f := fun i => f (i + 1)) fun i hi => hf (i + 1) (by omega)
    rw [fieldValue_succ, Nat.pow_succ]
    split
    · omega
    · have : f 0 * 2 ^ n ≤ 1 * 2 ^ n := Nat.mul_le_mul_right _ h0
      omega

/-- The bits of `v`, read as a field, are `v` again. -/
theorem fieldValue_bits (lsb : Bool) (n v : Nat) :
    fieldValue lsb n (fun i => v / 2 ^ (if lsb then i else n - 1 - i) % 2) = v % 2 ^ n := by
  induction n generalizing v with
  | zero => simp [fieldValue, Nat.mod_one]
  | succ n ih =>
    rw [fieldValue_succ]
    cases lsb with
    | true =>
      have hdiv : ∀ i, v / 2 ^ (i + 1) = v / 2 / 2 ^ i := fun i => by rw [Nat.pow_succ', Nat.div_div_eq_div_mul]
      simp only [if_true, hdiv] at ih ⊢
      rw [ih, Nat.pow_succ', Nat.mod_mul, Nat.pow_zero, Nat.div_one]
    | false =>
      have hexp : ∀ i, n + 1 - 1 - (i + 1) = n - 1 - i := by omega
      simp only [Bool.false_eq_true, if_false, hexp] at ih ⊢
      rw [ih, Nat.mod_pow_succ, Nat.add_comm, Nat.mul_comm, Nat.add_sub_cancel, Nat.sub_zero]

/-! ## Reading a field bit by bit -/

/-- The accumulation that SrcBits (R107) and BR_PEEKBITS (40_sys_bitreader.md R175) share: `v` holds the first `i` bits, and bits
`f i` to `f (i + n - 1)` follow. -/
def gatherBits (lsb : Bool) (f : Nat → Nat) (n i v : Nat) : Nat :=
  match n with
  | 0 => v
  | n + 1 => gatherBits lsb f n (i + 1) (if lsb then v + f i * 2 ^ i else 2 * v + f i)

theorem gatherBits_eq (lsb : Bool) (f : Nat → Nat) (n i v : Nat) : gatherBits lsb f n i v =
    if lsb then v + 2 ^ i * fieldValue lsb n (fun j => f (i + j)) else v * 2 ^ n + fieldValue lsb n (fun j => f (i + j)) := by
  induction n generalizing i v with
  | zero => simp [gatherBits, fieldValue]
  | succ n ih =>
    have hshift : (fun j => f (i + 1 + j)) = fun j => f (i + (j + 1)) := by
      funext j
      rw [Nat.add_assoc, Nat.add_comm 1]
    rw [gatherBits, ih, hshift, fieldValue_succ]
    cases lsb with
    | true => simp only [if_true, Nat.add_zero]; ring
    | false => simp only [Bool.false_eq_true, if_false, Nat.add_zero]; ring

theorem gatherBits_start (lsb : Bool) (f : Nat → Nat) (n : Nat) : gatherBits lsb f n 0 0 = fieldValue lsb n f := by
  rw [gatherBits_eq]
  cases lsb <;> simp

theorem srcBitsFrom_gather {e : Env} {n i v p : Nat} {io : Io} (hp : io.pos = p + i) (h : io.pos + n ≤ 8 * e.srcLen) :
    srcBitsFrom e n i v io =
      .ok (gatherBits e.lsb (fun j => bitNat (bitAt e io.buf (p + j))) n i v, { io with pos := io.pos + n }) := by
  induction n generalizing i v io with
  | zero => rfl
  | succ n ih =>
    rw [srcBitsFrom, srcBit_of_lt (by omega)]
    refine (ih (io := { io with pos := io.pos + 1 }) (i := i + 1) (by simp [hp, Nat.add_assoc]) (by simp; omega)).trans ?_
    simp [gatherBits, hp, Nat.add_assoc, Nat.add_comm 1 n]

/-- `SrcBits(n)` inside the source answers the field at the cursor. -/
theorem srcBits_field {e : Env} {n : Nat} {io : Io} (h : io.pos + n ≤ 8 * e.srcLen) : srcBits e n io =
    .ok (fieldValue e.lsb n (fun j => bitNat (bitAt e io.buf (io.pos + j))), { io with pos := io.pos + n }) := by
  rw [srcBits, srcBitsFrom_gather (p := io.pos) rfl h, gatherBits_start]

theorem peekFrom_gather (e : Env) (buf : Store 8) (limit p n i v : Nat) : peekFrom e buf limit (p + i) n i v =
    gatherBits e.lsb (fun j => if p + j < limit then bitNat (bitAt e buf (p + j)) else 0) n i v := by
  induction n generalizing i v with
  | zero => rfl
  | succ n ih =>
    rw [peekFrom, Nat.add_assoc, ih, gatherBits]

/-! ## The bits of a state's source -/

/-- The bit a read takes is the bit of the source the statements speak of. -/
theorem bitNat_bitAt (s : State) (p : Nat) : bitNat (bitAt s.env s.buf p) = s.srcBitAt p := by
  unfold bitAt State.srcBitAt State.env
  cases s.lsb <;> rfl

theorem srcBitAt_le (s : State) (p : Nat) : s.srcBitAt p ≤ 1 := by
  rw [← bitNat_bitAt]
  exact Nat.le_of_lt_succ (bitNat_lt _)

theorem srcBits_srcField {s : State} {n : Nat} (h : s.src.pos.toNat + n ≤ 8 * s.src.len.toNat) :
    srcBits s.env n s.io = .ok (s.srcField s.src.pos.toNat n, { s.io with pos := s.src.pos.toNat + n }) := by
  refine (srcBits_field (e := s.env) (io := s.io) h).trans ?_
  simp only [show s.io.buf = s.buf from rfl, bitNat_bitAt]
  rfl

/-! ## The commands (40_sys_bitreader.md R173 to R176) -/

theorem checkBitsLeft_ok {s : State} {n : Nat} (h : s.src.pos.toNat + n ≤ 8 * s.src.len.toNat) :
    s.checkBitsLeft n = .ok () := require_ok.mpr (by simpa using h)

theorem checkBitsLeft_error {s : State} {n : Nat} (h : 8 * s.src.len.toNat < s.src.pos.toNat + n) :
    s.checkBitsLeft n = .error ⟨.truncatedInput, s.src.pos⟩ := require_error.mpr ⟨by simpa using h, rfl⟩

theorem countCheck_ok {n : BitVec 6} (h : n.toNat ≤ 32) :
    require (decide (n.toNat ≤ 32)) .badOperand (immWord n) = .ok () := require_ok.mpr (by simpa using h)

theorem countCheck_error {n : BitVec 6} (h : 32 < n.toNat) :
    require (decide (n.toNat ≤ 32)) .badOperand (immWord n) = .error ⟨.badOperand, immWord n⟩ :=
  require_error.mpr ⟨by simpa using h, rfl⟩

theorem exec_brGetbits_ok {s : State} {n : BitVec 6} (hn : n.toNat ≤ 32) (hs : s.srcInBounds = true)
    (hl : s.src.pos.toNat + n.toNat ≤ 8 * s.src.len.toNat) :
    exec (.brGetbits n) s = .next (((s.atBit (s.src.pos.toNat + n.toNat)).setResult
      (BitVec.ofNat 32 (s.srcField s.src.pos.toNat n.toNat))).finished) := by
  refine runCommand_complete ?_ ?_
  · rw [countCheck_ok hn, checkSrc_ok hs, checkBitsLeft_ok hl]; rfl
  · rw [srcBits_srcField hl]; rfl

theorem exec_brGetbit_ok {s : State} (hs : s.srcInBounds = true) (hl : s.src.pos.toNat < 8 * s.src.len.toNat) :
    exec .brGetbit s = .next (((s.atBit (s.src.pos.toNat + 1)).setResult
      (BitVec.ofNat 32 (s.srcBitAt s.src.pos.toNat))).finished) := by
  refine runCommand_complete ?_ ?_
  · rw [checkSrc_ok hs, checkBitsLeft_ok (by omega)]; rfl
  · rw [srcBit_of_lt (e := s.env) (io := s.io) hl, ← bitNat_bitAt]; rfl

/-- BR_PEEKBITS reads zeros past the end and leaves the cursor. -/
theorem exec_brPeekbits_ok {s : State} {n : BitVec 6} (hn : n.toNat ≤ 32) (hs : s.srcInBounds = true) :
    exec (.brPeekbits n) s = .next (((s.setResult (BitVec.ofNat 32
      (fieldValue s.lsb n.toNat (fun i => if s.src.pos.toNat + i < 8 * s.src.len.toNat then s.srcBitAt (s.src.pos.toNat + i)
        else 0)))).setResult1 (BitVec.ofNat 32 (min n.toNat (8 * s.src.len.toNat - s.src.pos.toNat)))).finished) := by
  have hv : peekFrom s.env s.buf (8 * s.src.len.toNat) s.src.pos.toNat n.toNat 0 0 = fieldValue s.lsb n.toNat
      (fun i => if s.src.pos.toNat + i < 8 * s.src.len.toNat then s.srcBitAt (s.src.pos.toNat + i) else 0) := by
    have h := peekFrom_gather s.env s.buf (8 * s.src.len.toNat) s.src.pos.toNat n.toNat 0 0
    simp only [bitNat_bitAt, gatherBits_start] at h
    exact h
  rw [← hv]
  refine runCommand_complete (after := s) ?_ rfl
  rw [countCheck_ok hn, checkSrc_ok hs]; rfl

/-- BR_ALIGN stops at the next byte boundary, which is in the span when the cursor is. -/
theorem exec_brAlign_ok {s : State} (hs : s.srcInBounds = true) : ∃ p, s.src.pos.toNat ≤ p ∧ p < s.src.pos.toNat + 8
    ∧ p % 8 = 0 ∧ p ≤ 8 * s.src.len.toNat
    ∧ exec .brAlign s = .next (((s.atBit p).setResult (BitVec.ofNat 32 (p - s.src.pos.toNat))).finished) := by
  refine ⟨alignUp s.src.pos.toNat, alignUp_ge _, alignUp_lt _, alignUp_mod _, ?_,
    runCommand_complete (after := s) (checkSrc_ok hs) rfl⟩
  have := (srcInBounds_iff.mp hs).2
  unfold alignUp
  omega

/-- Settles O23: each read answered by its field, each refusal by its check. -/
theorem brReadsBits : Obligations.BrReadsBits := by
  refine ⟨fun s n => ⟨fun hn hs hl => ⟨exec_brGetbits_ok hn hs hl, fieldValue_lt _ _ fun _ _ => srcBitAt_le s _⟩,
    fun hn hs hl => refused_of_check ⟨.truncatedInput, s.src.pos⟩ rfl ?getbitsShort,
    fun hn hs => refused_of_check ⟨.outOfBounds, s.src.base⟩ rfl ?getbitsSpan,
    fun hn => refused_of_check ⟨.badOperand, immWord n⟩ rfl ?getbitsCount, exec_brGetbit_ok,
    fun hs hl => refused_of_check ⟨.truncatedInput, s.src.pos⟩ rfl ?getbitShort,
    fun hs => refused_of_check ⟨.outOfBounds, s.src.base⟩ rfl ?getbitSpan⟩,
    fun s => ⟨fun n => exec_brPeekbits_ok, fun n hn hs => refused_of_check ⟨.outOfBounds, s.src.base⟩
      (show execBrPeekbits n s = _ from rfl) ?peekbitsSpan,
    fun n hn => refused_of_check ⟨.badOperand, immWord n⟩ (show execBrPeekbits n s = _ from rfl) ?peekbitsCount, exec_brAlign_ok,
    fun hs => refused_of_check ⟨.outOfBounds, s.src.base⟩ (show execBrAlign s = _ from rfl) (checkSrc_error hs)⟩⟩
  case getbitsShort => rw [countCheck_ok hn, checkSrc_ok hs, checkBitsLeft_error hl]; rfl
  case getbitsSpan => rw [countCheck_ok hn, checkSrc_error hs]; rfl
  case getbitsCount => rw [countCheck_error hn]; rfl
  case getbitShort => rw [checkSrc_ok hs, checkBitsLeft_error (by omega)]; rfl
  case getbitSpan => rw [checkSrc_error hs]; rfl
  case peekbitsSpan => rw [countCheck_ok hn, checkSrc_error hs]; rfl
  case peekbitsCount => rw [countCheck_error hn]; rfl

end Sys2Proof.Machine
end

section
/-! PROOFS. Where commands store (20_memory.md R109, R112), and that what a raced or overlapping command stores is free
(R118, R119). -/

namespace Sys2Proof.Machine

/-! ## Stores confined to a set of addresses -/

/-- `buf'` differs from `buf` at addresses of `A` only, and under a taint only by free bytes. -/
def Store.WrittenIn (taint : Option Nat) (A : Nat → Prop) (buf buf' : Store 8) : Prop :=
  ∀ a, buf'.get a = buf.get a ∨ (A a ∧ (taint.isSome = true → ∃ k, buf'.get a = Config.freeBits 8 k a))

namespace Store.WrittenIn

variable {taint : Option Nat} {A B : Nat → Prop} {buf buf' buf'' : Store 8}

theorem refl : buf.WrittenIn taint A buf := fun _ => .inl rfl

theorem of_eq (h : buf' = buf) : buf.WrittenIn taint A buf' := h ▸ refl

theorem trans (h : buf.WrittenIn taint A buf') (h' : buf'.WrittenIn taint A buf'') : buf.WrittenIn taint A buf'' := by
  intro a
  rcases h' a with heq | hnew
  · rw [heq]
    exact h a
  · exact .inr hnew

theorem mono (h : buf.WrittenIn taint A buf') (hAB : ∀ a, A a → B a) : buf.WrittenIn taint B buf' :=
  fun a => (h a).imp id fun ⟨ha, hfree⟩ => ⟨hAB a ha, hfree⟩

theorem retaint {taint' : Option Nat} (h : buf.WrittenIn taint A buf') (ht : taint'.isSome = true → taint.isSome = true) :
    buf.WrittenIn taint' A buf' :=
  fun a => (h a).imp id fun ⟨ha, hfree⟩ => ⟨ha, hfree ∘ ht⟩

/-- Outside its addresses a store leaves every byte. -/
theorem get_out (h : buf.WrittenIn taint A buf') {a : Nat} (ha : ¬ A a) : buf'.get a = buf.get a :=
  (h a).resolve_right fun h' => ha h'.1

/-- Under a taint every byte stays or is free. -/
theorem old_or_free (h : buf.WrittenIn taint A buf') (ht : taint.isSome = true) (a : Nat) :
    buf'.get a = buf.get a ∨ ∃ k, buf'.get a = Config.freeBits 8 k a :=
  (h a).imp id fun h' => h'.2 ht

end Store.WrittenIn

/-- What a tainted command writes is free. -/
theorem writtenByte_free {taint : Option Nat} (a : Nat) (b : Byte) (ht : taint.isSome = true) :
    ∃ k, writtenByte taint a b = Config.freeBits 8 k a := by
  obtain ⟨k, rfl⟩ := Option.isSome_iff_exists.mp ht
  exact ⟨k, rfl⟩

theorem setSpan_writtenIn (taint : Option Nat) (buf : Store 8) (base n : Nat) {f : Nat → Byte}
    (hf : ∀ a, taint.isSome = true → ∃ k, f a = Config.freeBits 8 k a) :
    buf.WrittenIn taint (fun a => base ≤ a ∧ a < base + n) (buf.setSpan base n f) := by
  intro a
  rw [Store.get_setSpan]
  split
  · next h => exact .inr ⟨h, hf a⟩
  · exact .inl rfl

theorem putByte_writtenIn (taint : Option Nat) (buf : Store 8) (a : Nat) (b : Byte) :
    buf.WrittenIn taint (fun x => x = a) (putByte taint buf a b) := by
  intro x
  unfold putByte
  rw [Store.get_set]
  split
  · next h => exact .inr ⟨h, fun ht => h ▸ writtenByte_free a b ht⟩
  · exact .inl rfl

theorem memWriteLE_writtenIn (taint : Option Nat) (buf : Store 8) (addr n v : Nat) :
    buf.WrittenIn taint (fun a => addr ≤ a ∧ a < addr + n) (memWriteLE taint buf addr n v) :=
  setSpan_writtenIn _ _ _ _ fun a => writtenByte_free a _

theorem memWriteBE_writtenIn (taint : Option Nat) (buf : Store 8) (addr n v : Nat) :
    buf.WrittenIn taint (fun a => addr ≤ a ∧ a < addr + n) (memWriteBE taint buf addr n v) :=
  setSpan_writtenIn _ _ _ _ fun a => writtenByte_free a _

/-! ## The loops that store through the destination cursor -/

/-- From `io` to `io'` the destination cursor moved on, not past the span, and only the bytes it passed were stored. -/
structure Io.Stores (e : Env) (io io' : Io) : Prop where
  advance : io.out ≤ io'.out
  room : io.out ≤ e.dstLen → io'.out ≤ e.dstLen
  bytes : io.buf.WrittenIn e.taint (fun a => e.dstBase + io.out ≤ a ∧ a < e.dstBase + io'.out) io'.buf

theorem Io.Reads.stores {io io' : Io} (h : io.Reads io') (e : Env) : io.Stores e io' :=
  ⟨Nat.le_of_eq h.2.symm, h.2 ▸ id, .of_eq h.1⟩

theorem Io.Stores.refl {e : Env} {io : Io} : io.Stores e io := (Io.Reads.refl io).stores e

theorem Io.Stores.trans {e : Env} {a b c : Io} (h : a.Stores e b) (h' : b.Stores e c) : a.Stores e c where
  advance := h.advance.trans h'.advance
  room := h'.room ∘ h.room
  bytes := by
    have hab := h.advance
    have hbc := h'.advance
    exact (h.bytes.mono fun _ _ => by omega).trans (h'.bytes.mono fun _ _ => by omega)

theorem dstPut_stores {e : Env} {io : Io} (h : dstFull e io = false) (b : Byte) : io.Stores e (dstPut e io b) where
  advance := Nat.le_succ _
  room := fun _ => dstFull_false.mp h
  bytes := (putByte_writtenIn _ _ _ _).mono fun a ha => by simp only [dstPut_out]; omega

/-- A read keeps the room that is left. -/
theorem dstFull_of_reads {e : Env} {io io' : Io} (hr : io.Reads io') : dstFull e io' = dstFull e io := by
  rw [dstFull, hr.2, dstFull]

theorem lzCopy_stores (e : Env) (n pos : Nat) (l : LzLoop) : l.io.Stores e (lzCopy e n pos l).io := by
  induction n generalizing pos l with
  | zero => exact .refl
  | succ n ih =>
    unfold lzCopy
    split
    · exact .refl
    · next h => exact (dstPut_stores (by simpa using h) _).trans (ih _ (lzEmit e l _))

theorem lzCopyStrict_stores (e : Env) (n pos : Nat) (l : LzLoop) :
    Run.Meets (lzCopyStrict e n pos l) (fun l' => l.io.Stores e l'.io) := by
  induction n generalizing pos l with
  | zero => exact Io.Stores.refl
  | succ n ih =>
    unfold lzCopyStrict
    split
    · exact rfl
    · next h => exact (ih _ _).mono fun _ h' => (dstPut_stores (by simpa using h) _).trans h'

/-- A literal read with room left. -/
theorem lzEmit_stores {e : Env} {l : LzLoop} {io : Io} (hr : l.io.Reads io) (h : dstFull e l.io = false) (b : Byte) :
    l.io.Stores e (lzEmit e { l with io := io } b).io :=
  (hr.stores e).trans (dstPut_stores ((dstFull_of_reads hr).trans h) b)

theorem stdStep_stores {e : Env} (ctl : Nat) {l : LzLoop} (h : dstFull e l.io = false) :
    Run.Meets (stdStep e ctl l) (fun l' => l.io.Stores e l'.io) := by
  unfold stdStep
  split
  · exact .bind (srcByte_meets ..) fun ⟨_, _⟩ h1 => lzEmit_stores h1 h _
  · exact .bind (srcByte_meets ..) fun ⟨_, _⟩ h1 => .bind (srcByte_meets ..) fun ⟨_, _⟩ h2 =>
      ((h1.trans h2).stores e).trans (lzCopy_stores e _ _ ⟨_, _⟩)

theorem stdFrom_stores (e : Env) (fuel ctl : Nat) (l : LzLoop) :
    Run.Meets (stdFrom e fuel ctl l) (fun l' => l.io.Stores e l'.io) := by
  induction fuel generalizing ctl l with
  | zero => exact Io.Stores.refl
  | succ fuel ih =>
    unfold stdFrom
    split
    · exact Io.Stores.refl
    · next hroom =>
      split
      · next hb => exact (lzFlags_meets e ctl l.io).of_error hb
      · next ctl' _ io hb =>
        have hr : l.io.Reads io := (lzFlags_meets e ctl l.io).of_ok hb
        have hs := stdStep_stores ctl' (l := { l with io := io }) ((dstFull_of_reads hr).trans (by simpa using hroom))
        split
        · next hb => exact hs.of_error hb
        · next hb => exact (ih _ _).mono fun _ h' => ((hr.stores e).trans (hs.of_ok hb)).trans h'

theorem onsStep_stores {e : Env} {l : LzLoop} (h : dstFull e l.io = false) :
    Run.Meets (onsStep e l) (fun l' => l.io.Stores e l'.io) := by
  unfold onsStep
  refine .bind (srcBit_meets e l.io) fun ⟨b, io1⟩ h1 => ?_
  dsimp only
  split
  · exact .bind (srcBits_meets ..) fun ⟨_, _⟩ h2 => lzEmit_stores (h1.trans h2) h _
  · exact .bind (srcBits_meets ..) fun ⟨_, _⟩ h2 => .bind (srcBits_meets ..) fun ⟨_, _⟩ h3 =>
      (((h1.trans h2).trans h3).stores e).trans (lzCopy_stores e _ _ ⟨_, _⟩)

theorem onsFrom_stores (e : Env) (fuel : Nat) (l : LzLoop) :
    Run.Meets (onsFrom e fuel l) (fun l' => l.io.Stores e l'.io) := by
  induction fuel generalizing l with
  | zero => exact Io.Stores.refl
  | succ fuel ih =>
    unfold onsFrom
    split
    · exact Io.Stores.refl
    · next hroom =>
      have hs := onsStep_stores (e := e) (l := l) (by simpa using hroom)
      split
      · next hb => exact hs.of_error hb
      · next hb => exact (ih _).mono fun _ h' => (hs.of_ok hb).trans h'

theorem tlg5Step_stores (e : Env) (ctl : Nat) (l : LzLoop) :
    Run.Meets (tlg5Step e ctl l) (fun l' => l.io.Stores e l'.io) := by
  unfold tlg5Step
  split
  · refine .bind (srcByte_meets ..) fun ⟨b0, io1⟩ h1 => .bind (srcByte_meets ..) fun ⟨b1, io2⟩ h2 => ?_
    dsimp only
    split
    · exact .bind (srcByte_meets ..) fun ⟨_, _⟩ h3 => (lzCopyStrict_stores e _ _ _).mono fun _ h' =>
        (((h1.trans h2).trans h3).stores e).trans h'
    · exact (lzCopyStrict_stores e _ _ _).mono fun _ h' => ((h1.trans h2).stores e).trans h'
  · split
    · exact rfl
    · next h => exact .bind (srcByte_meets ..) fun ⟨_, _⟩ h1 => lzEmit_stores h1 (by simpa using h) _

theorem tlg5From_stores (e : Env) (fuel ctl : Nat) (l : LzLoop) :
    Run.Meets (tlg5From e fuel ctl l) (fun l' => l.io.Stores e l'.io) := by
  induction fuel generalizing ctl l with
  | zero => exact Io.Stores.refl
  | succ fuel ih =>
    unfold tlg5From
    split
    · exact Io.Stores.refl
    · split
      · next hb => exact (lzFlags_meets e ctl l.io).of_error hb
      · next ctl' _ io hb =>
        have hr : l.io.Reads io := (lzFlags_meets e ctl l.io).of_ok hb
        have hs := tlg5Step_stores e ctl' { l with io := io }
        split
        · exact hr.stores e
        · split
          · next hb => exact hs.of_error hb
          · next hb => exact (ih _ _).mono fun _ h' => ((hr.stores e).trans (hs.of_ok hb)).trans h'

theorem lzVariant_stores (s : State) (v : Nat) : Run.Meets (lzVariant s v) (fun l => s.io.Stores s.env l.io) := by
  unfold lzVariant
  dsimp only
  split
  · exact stdFrom_stores s.env _ _ _
  · split
    · exact onsFrom_stores s.env _ _
    · exact (tlg5From_stores s.env _ _ _).mono fun _ h => ((s.io.reads_pos _).stores s.env).trans h

theorem rcDecodeFrom_stores (g : RcCfg) (e : Env) (fuel : Nat) (l : RcLoop) :
    Run.Meets (rcDecodeFrom g e fuel l) (fun l' => l.io.Stores e l'.io) := by
  induction fuel generalizing l with
  | zero => exact rfl
  | succ fuel ih =>
    unfold rcDecodeFrom
    have hc := rcCulshift_meets g e l.qs.lgTotf.toNat l.rc l.io
    split
    · next hb => exact hc.of_error hb
    · next t rc io hb =>
      have hr : l.io.Reads io := hc.of_ok hb
      dsimp only
      split
      · exact hr.stores e
      · split
        · exact rfl
        · next hroom => exact (ih _).mono fun _ h' =>
            ((hr.stores e).trans (dstPut_stores (by simpa using hroom) _)).trans h'

/-! ## The loops that store at given addresses -/

/-- The addresses of `n` bytes, `stride` apart. -/
def StridedAt (base stride n : Nat) (a : Nat) : Prop := ∃ j < n, a = base + j * stride

theorem golRun_writtenIn (e : Env) (zero : Bool) (stride c at_ : Nat) (l : GolLoop) :
    Run.Meets (golRun e zero stride c at_ l) (fun l' => l'.io.out = l.io.out
      ∧ l.io.buf.WrittenIn e.taint (StridedAt at_ stride c) l'.io.buf) := by
  induction c generalizing at_ l with
  | zero => exact ⟨rfl, .refl⟩
  | succ c ih =>
    have hfirst : ∀ buf b, Store.WrittenIn e.taint (StridedAt at_ stride (c + 1)) buf (putByte e.taint buf at_ b) :=
      fun buf b => (putByte_writtenIn _ _ _ _).mono fun a ha => ⟨0, by omega, by simp [ha]⟩
    have hrest : ∀ a, StridedAt (at_ + stride) stride c a → StridedAt at_ stride (c + 1) a := fun a ⟨j, hj, ha⟩ =>
      ⟨j + 1, by omega, by rw [ha, Nat.succ_mul]; omega⟩
    unfold golRun
    split
    · exact (ih _ _).mono fun _ h => ⟨h.1, (hfirst _ _).trans (h.2.mono hrest)⟩
    · have hv := golValue_meets e l.gol l.io
      split
      · next hb => exact hv.of_error hb
      · next v hb =>
        have hr : l.io.Reads v.io := hv.of_ok hb
        exact (ih _ _).mono fun _ h =>
          ⟨h.1.trans hr.2, (Store.WrittenIn.of_eq hr.1).trans ((hfirst _ _).trans (h.2.mono hrest))⟩

theorem golRuns_writtenIn (e : Env) (stride count base fuel i : Nat) (zero : Bool) (l : GolLoop) :
    Run.Meets (golRuns e stride count base fuel i zero l) (fun l' => l'.io.out = l.io.out
      ∧ l.io.buf.WrittenIn e.taint (StridedAt base stride count) l'.io.buf) := by
  induction fuel generalizing i zero l with
  | zero => exact ⟨rfl, .refl⟩
  | succ fuel ih =>
    unfold golRuns
    have hg := runGamma_meets e l.io
    split
    · split
      · next hb => exact hg.of_error hb
      · next c _ io hb =>
        have hr : l.io.Reads io := hg.of_ok hb
        split
        · exact rfl
        · next hc =>
          have hrun := golRun_writtenIn e zero stride c (base + i * stride) { l with io := io }
          have hin : ∀ a, StridedAt (base + i * stride) stride c a → StridedAt base stride count a := fun a ⟨j, hj, ha⟩ =>
            ⟨i + j, by omega, by rw [ha, Nat.add_mul]; omega⟩
          split
          · next hb => exact hrun.of_error hb
          · next hb =>
            obtain ⟨hout, hbytes⟩ := hrun.of_ok hb
            exact (ih _ _ _).mono fun _ h => ⟨h.1.trans (hout.trans hr.2),
              (Store.WrittenIn.of_eq hr.1).trans ((hbytes.mono hin).trans h.2)⟩
    · exact ⟨rfl, .refl⟩

theorem camDecryptFrom_writtenIn (s : State) (n a : Nat) (bo : BitVec 64) (buf : Store 8) :
    buf.WrittenIn s.taint (fun x => a ≤ x ∧ x < a + 16 * n) (s.camDecryptFrom n a bo buf) := by
  induction n generalizing a bo buf with
  | zero => exact .refl
  | succ n ih =>
    exact ((memWriteBE_writtenIn _ _ _ _ _).mono fun _ _ => by omega).trans ((ih _ _ _).mono fun _ _ => by omega)

theorem nekoDecryptFrom_writtenIn (taint : Option Nat) (n a : Nat) (buf : Store 8) (key : BitVec 64) :
    buf.WrittenIn taint (fun x => a ≤ x ∧ x < a + 8 * n) (nekoDecryptFrom taint n a buf key).1 := by
  induction n generalizing a buf key with
  | zero => exact .refl
  | succ n ih =>
    exact ((memWriteLE_writtenIn _ _ _ _ _).mono fun _ _ => by omega).trans ((ih _ _ _).mono fun _ _ => by omega)

theorem storeFloats_writtenIn (taint : Option Nat) (xa : Store 32) (addr n i : Nat) (buf : Store 8) :
    buf.WrittenIn taint (fun x => addr + 4 * i ≤ x ∧ x < addr + 4 * (i + n)) (storeFloats taint xa addr n i buf) := by
  induction n generalizing i buf with
  | zero => exact .refl
  | succ n ih =>
    exact ((memWriteLE_writtenIn _ _ _ _ _).mono fun _ _ => by omega).trans ((ih _ _).mono fun _ _ => by omega)

/-- The two bytes of each of the samples `i` to `i + n - 1` (47_transform.md R470). -/
def SampleBytes (addr stride : Word) (i n : Nat) (a : Nat) : Prop :=
  ∃ k, i ≤ k ∧ k < i + n ∧ (sampleAt addr stride k).toNat ≤ a ∧ a < (sampleAt addr stride k).toNat + 2

theorem storeSamples_writtenIn (taint : Option Nat) (xa : Store 32) (addr stride : Word) (n i : Nat) (buf : Store 8) :
    buf.WrittenIn taint (SampleBytes addr stride i n) (storeSamples taint xa addr stride n i buf) := by
  induction n generalizing i buf with
  | zero => exact .refl
  | succ n ih =>
    refine ((memWriteLE_writtenIn _ _ _ _ _).mono fun a ha => ⟨i, by omega, by omega, ha⟩).trans
      ((ih (i + 1) _).mono fun a ⟨k, h1, h2, ha⟩ => ⟨k, by omega, by omega, ha⟩)

end Sys2Proof.Machine
end

section
/-! PROOFS. The frame of every storing command (60_exceptions.md R505, R511), and what a race or an overlap leaves (R118, R119). -/

namespace Sys2Proof.Machine

/-! ## RC_DECODE and LZ_DECOMPRESS -/

/-- `u` stored through the destination cursor only: from its old place to its new one, inside the span. -/
structure State.StoresSpan (s u : State) : Prop where
  advance : s.dst.pos.toNat ≤ u.dst.pos.toNat
  room : u.dst.pos.toNat ≤ s.dst.len.toNat
  bytes : s.buf.WrittenIn s.taint
    (fun a => s.dst.base.toNat + s.dst.pos.toNat ≤ a ∧ a < s.dst.base.toNat + u.dst.pos.toNat) u.buf

theorem State.StoresSpan.of_io {s u : State} {io : Io} (hd : s.dst.pos.toNat ≤ s.dst.len.toNat) (h : s.io.Stores s.env io)
    (hbuf : u.buf = io.buf) (hpos : u.dst.pos = wordOf io.out) : s.StoresSpan u := by
  have hroom : io.out ≤ s.dst.len.toNat := h.room hd
  have hout : (wordOf io.out).toNat = io.out := wordOf_toNat (Nat.lt_of_le_of_lt hroom s.dst.len.isLt)
  refine ⟨?_, ?_, ?_⟩
  · rw [hpos, hout]; exact h.advance
  · rwa [hpos, hout]
  · rw [hbuf, hpos, hout]; exact h.bytes

theorem rcDecodeBody_stores {s : State} (hd : s.dst.pos.toNat ≤ s.dst.len.toNat) :
    Run.Meets (rcDecodeBody s) s.StoresSpan := by
  unfold rcDecodeBody
  split
  · exact ⟨Nat.le_refl _, hd, .refl⟩
  · exact .bind (rcStartup_meets ..) fun ⟨_, _, _⟩ hr => .bind (rcDecodeFrom_stores _ s.env _ _) fun _ hl =>
      .of_io hd ((hr.stores _).trans hl) rfl rfl

theorem lzBody_stores {s : State} (hd : s.dst.pos.toNat ≤ s.dst.len.toNat) (v : Nat) :
    Run.Meets (lzBody s v) s.StoresSpan := by
  unfold lzBody
  split
  · exact ⟨Nat.le_refl _, hd, .refl⟩
  · exact .bind (lzVariant_stores s v) fun _ hl => .of_io hd hl rfl rfl

/-- The bytes an execution error loses are those from the destination cursor to the end of the span. -/
theorem loseDst_writtenIn (s : State) (taint : Option Nat) (hd : s.dst.pos.toNat ≤ s.dst.len.toNat) :
    s.buf.WrittenIn taint (fun a => s.dst.base.toNat + s.dst.pos.toNat ≤ a ∧ a < s.dst.base.toNat + s.dst.len.toNat)
      s.loseDst.buf :=
  (setSpan_writtenIn taint s.buf _ _ fun _ _ => ⟨_, rfl⟩).mono fun _ _ => by omega

/-- What a command that stores through the destination cursor ends with. -/
def State.EndsInSpan (s t : State) : Prop :=
  (t.err = true ∧ s.buf.WrittenIn s.markOverlap.taint
      (fun a => s.dst.base.toNat + s.dst.pos.toNat ≤ a ∧ a < s.dst.base.toNat + s.dst.len.toNat) t.buf)
    ∨ s.markOverlap.StoresSpan t

theorem rcDecode_endsInSpan {s t : State} (h : exec .rcDecode s = .next t) : s.EndsInSpan t := by
  have hchecks : Run.Meets (do s.requireReady s.qs.valid; s.checkSrc; s.checkDst)
      (fun _ => s.dst.pos.toNat ≤ s.dst.len.toNat) :=
    .bind (requireReady_meets ..) fun _ _ => .bind (checkSrc_meets s) fun _ _ => (checkDst_meets s).mono fun _ hd => hd.2
  rcases runCommand_cases h with ⟨r, hc, rfl⟩ | ⟨u, hc, hb, rfl⟩ | ⟨r, hc, hb, rfl⟩
  · exact .inl ⟨rfl, .refl⟩
  · obtain ⟨hadv, hroom, hbytes⟩ := (rcDecodeBody_stores (s := s.markOverlap) (hchecks.of_ok hc)).of_ok hb
    exact .inr ⟨hadv, hroom, hbytes⟩
  · exact .inl ⟨rfl, loseDst_writtenIn s.markOverlap.loseSrcPos _ (hchecks.of_ok hc)⟩

theorem lzDecompress_endsInSpan {v : BitVec 4} {s t : State} (h : exec (.lzDecompress v) s = .next t) : s.EndsInSpan t := by
  rcases runCommand_cases h with ⟨r, hc, rfl⟩ | ⟨u, hc, hb, rfl⟩ | ⟨r, hc, hb, rfl⟩
  · exact .inl ⟨rfl, .refl⟩
  · obtain ⟨hadv, hroom, hbytes⟩ :=
      (lzBody_stores (s := s.markOverlap) ((checkLzDecompress_meets s _).of_ok hc).2 _).of_ok hb
    exact .inr ⟨hadv, hroom, hbytes⟩
  · refine .inl ⟨rfl, ?_⟩
    have hlost := loseDst_writtenIn s.markOverlap.loseSrcPos s.markOverlap.taint ((checkLzDecompress_meets s _).of_ok hc).2
    unfold State.afterLzError
    split <;> exact hlost

/-! ## GOL_DECODE -/

theorem golOut_eq (s : State) (j : Nat) :
    s.golOut j = s.dst.base.toNat + s.dst.pos.toNat + j * (s.arg 1).toNat := rfl

/-- The state GOL_DECODE's body runs in: it overlaps only when it reads (R119, R320). -/
def State.golStart (s : State) : State := if s.arg 0 = 0 then s else s.markOverlap

theorem golStart_cases (s : State) : s.golStart = s ∨ s.golStart = s.markOverlap := by
  unfold State.golStart
  split
  · exact .inl rfl
  · exact .inr rfl

theorem golDecodeBody_writtenIn (s : State) : Run.Meets (golDecodeBody s) (fun u => u.dst = s.dst
    ∧ s.buf.WrittenIn s.taint (StridedAt (s.golOut 0) (s.arg 1).toNat (s.arg 0).toNat) u.buf) := by
  unfold golDecodeBody
  split
  · exact ⟨rfl, .refl⟩
  · refine .bind (srcBit_meets ..) fun ⟨_, _⟩ hr => .bind (golRuns_writtenIn s.env ..) fun l ⟨hout, hbytes⟩ => ⟨?_, ?_⟩
    · have hpos : l.io.out = s.dst.pos.toNat := hout.trans hr.2
      simp [hpos]
    · exact (Store.WrittenIn.of_eq hr.1).trans hbytes

theorem golDecode_writtenIn {s t : State} (h : exec .golDecode s = .next t) : t.dst = s.dst
    ∧ s.buf.WrittenIn s.golStart.taint (StridedAt (s.golOut 0) (s.arg 1).toNat (s.arg 0).toNat) t.buf := by
  have hbody := golDecodeBody_writtenIn s.golStart
  rcases runCommand_cases h with ⟨r, hc, rfl⟩ | ⟨u, hc, hb, rfl⟩ | ⟨r, hc, hb, rfl⟩
  · exact ⟨rfl, .refl⟩
  · have hu := hbody.of_ok hb
    rcases golStart_cases s with hs | hs <;> rw [hs] at hu ⊢ <;> exact hu
  · refine ⟨by simp, fun a => ?_⟩
    have hget := Store.get_setEach s.buf ((List.range (s.arg 0).toNat).map s.golOut)
      (fun a => Config.freeBits 8 (s.draws + 2) a) a
    by_cases ha : a ∈ (List.range (s.arg 0).toNat).map s.golOut
    · rw [if_pos ha] at hget
      obtain ⟨j, hj, rfl⟩ := List.mem_map.mp ha
      exact .inr ⟨⟨j, List.mem_range.mp hj, by simp [golOut_eq]⟩, fun _ => ⟨_, hget⟩⟩
    · rw [if_neg ha] at hget
      exact .inl hget

/-! ## The commands that address BUF through ARGi -/

/-- A command whose body only answers leaves BUF as its body has it, or as it was. -/
theorem answer_writtenIn {s t u : State} {id : CmdId} {checks : Run Unit} {taint : Option Nat} {A : Nat → Prop}
    (h : runCommand s id checks (.ok u) s = .next t) (hu : checks = .ok () → s.buf.WrittenIn taint A u.buf) :
    s.buf.WrittenIn taint A t.buf := by
  rcases runCommand_cases h with ⟨r, hc, rfl⟩ | ⟨_, hc, ⟨⟩, rfl⟩ | ⟨r, hc, ⟨⟩, -⟩
  · exact .refl
  · exact hu hc

theorem camDecblk_writtenIn {s t : State} (h : exec .camDecblk s = .next t) :
    s.buf.WrittenIn s.taint (fun a => (s.arg 4).toNat ≤ a ∧ a < (s.arg 4).toNat + 16) t.buf :=
  answer_writtenIn h fun _ => memWriteBE_writtenIn _ _ _ _ _

theorem camDecrange_writtenIn {s t : State} (h : exec .camDecrange s = .next t) : s.buf.WrittenIn s.taint
    (fun a => (s.arg 4).toNat ≤ a ∧ a < (s.arg 4).toNat + 16 * ((s.arg 7).toNat / 16)) t.buf :=
  answer_writtenIn h fun _ => camDecryptFrom_writtenIn _ _ _ _ _

theorem nekoDecrypt_writtenIn {s t : State} (h : exec .nekoDecrypt s = .next t) : s.buf.WrittenIn s.taint
    (fun a => (s.arg 2).toNat ≤ a ∧ a < (s.arg 2).toNat + 8 * ((s.arg 3).toNat / 8)) t.buf :=
  answer_writtenIn h fun _ => nekoDecryptFrom_writtenIn _ _ _ _ _

theorem xfStoref_writtenIn {d : BitVec 4} {s t : State} (h : exec (.xfStoref d) s = .next t) : s.buf.WrittenIn s.taint
    (fun a => (s.arg 0).toNat ≤ a ∧ a < (s.arg 0).toNat + 4 * 2 ^ d.toNat) t.buf :=
  answer_writtenIn h fun _ => (storeFloats_writtenIn _ _ _ _ _ _).mono fun _ ha => by simpa [blockSize] using ha

/-- The samples of a block whose check passes have addresses that are no negative numbers (47_transform.md R470). -/
theorem checkSamples_nonneg {s : State} {addr stride : Word} {n : Nat} (h : s.checkSamples addr stride n = .ok ()) :
    ∀ i < n, 0 ≤ sampleAt addr stride i := by
  intro i hi
  have hlo := of_decide_eq_true (Bool.and_eq_true_iff.mp (require_ok.mp h)).1
  unfold sampleAt at hlo ⊢
  have hle : (i : Int) ≤ ((n - 1 : Nat) : Int) := by omega
  rcases Int.le_total 0 stride.toInt with hs | hs
  · have := Int.mul_nonneg hs (Int.natCast_nonneg i)
    omega
  · have := Int.mul_le_mul_of_nonpos_left hs hle
    omega

/-- The bytes of a block of samples, their addresses written as R470 writes them. -/
def NamedSamples (addr stride : Word) (n a : Nat) : Prop :=
  ∃ i < n, (a : Int) = addr.toNat + stride.toInt * i ∨ (a : Int) = addr.toNat + stride.toInt * i + 1

/-- In a checked block the bytes of the samples are the ones R470 names. -/
theorem sampleBytes_of_nonneg {addr stride : Word} {n a : Nat} (h : ∀ i < n, 0 ≤ sampleAt addr stride i)
    (ha : SampleBytes addr stride 0 n a) : NamedSamples addr stride n a := by
  obtain ⟨i, -, hi, hlo, hhi⟩ := ha
  have hpos := h i (by omega)
  unfold sampleAt at hpos hlo hhi
  exact ⟨i, by omega, by omega⟩

theorem xfStore16_writtenIn {d : BitVec 4} {s t : State} (h : exec (.xfStore16 d) s = .next t) :
    s.buf.WrittenIn s.taint (NamedSamples (s.arg 0) (s.arg 1) (2 ^ d.toNat)) t.buf := by
  refine answer_writtenIn h fun hc => (storeSamples_writtenIn _ _ _ _ _ _ _).mono fun a ha => sampleBytes_of_nonneg ?_ ha
  obtain ⟨-, -, hc⟩ := Run.bind_ok.mp hc
  obtain ⟨-, -, hc⟩ := Run.bind_ok.mp hc
  obtain ⟨⟨⟩, hsamples, -⟩ := Run.bind_ok.mp hc
  exact checkSamples_nonneg hsamples

theorem State.taint_isSome (s : State) : s.taint.isSome = s.tainted := by
  unfold State.taint
  split <;> simp_all

/-- `u` differs from `s` in XF and the draw counter only. -/
def State.XfOnly (s u : State) : Prop := ∃ x n, u = { s with xf := x, draws := n }

theorem State.XfOnly.refl {s : State} : s.XfOnly s := ⟨s.xf, s.draws, rfl⟩

theorem State.XfOnly.setXf {s u : State} (h : s.XfOnly u) (x : Xf) : s.XfOnly { u with xf := x } := by
  obtain ⟨_, n, rfl⟩ := h
  exact ⟨x, n, rfl⟩

theorem State.XfOnly.loseXt {s u : State} (h : s.XfOnly u) (n : Nat) : s.XfOnly (u.loseXt n) := by
  obtain ⟨_, _, rfl⟩ := h
  exact ⟨_, _, rfl⟩

/-- The stages of XF_RESTORE before its store (R475). -/
theorem xfRestoreBlock_xfOnly (degree : BitVec 4) (s : State) : s.XfOnly (s.xfRestoreBlock degree) :=
  State.XfOnly.refl.setXf _ |>.setXf _ |>.setXf _ |>.loseXt _ |>.setXf _ |>.setXf _ |>.setXf _ |>.loseXt _

theorem xfRestore_writtenIn {d : BitVec 4} {s t : State} (h : exec (.xfRestore d) s = .next t) :
    s.buf.WrittenIn s.taint (NamedSamples (s.arg 3) (s.arg 4) (2 ^ d.toNat)) t.buf := by
  rcases runCommand_cases h with ⟨r, hc, rfl⟩ | ⟨u, hc, hb, rfl⟩ | ⟨r, hc, hb, rfl⟩
  · exact .refl
  · obtain ⟨-, -, hc⟩ := Run.bind_ok.mp hc
    obtain ⟨-, -, hc⟩ := Run.bind_ok.mp hc
    obtain ⟨⟨⟩, -, hsamples⟩ := Run.bind_ok.mp hc
    obtain ⟨x, n, hblock⟩ := xfRestoreBlock_xfOnly d s
    rw [hblock] at hb
    obtain ⟨-, -, ⟨⟩⟩ := Run.bind_ok.mp hb
    refine ((storeSamples_writtenIn _ _ _ _ _ _ _).retaint ?_).mono fun a ha =>
      sampleBytes_of_nonneg (checkSamples_nonneg hsamples) ha
    rw [State.taint_isSome, State.taint_isSome]
    exact id
  · exact .refl

theorem not_namedSamples {addr stride : Word} {degree a : Nat} (h : ∀ i : Int, i < 2 ^ degree →
    (a : Int) ≠ addr.toNat + stride.toInt * i ∧ (a : Int) ≠ addr.toNat + stride.toInt * i + 1) :
    ¬ NamedSamples addr stride (2 ^ degree) a := fun ⟨i, hi, ha⟩ => by
  obtain ⟨hlow, hhigh⟩ := h i (by exact_mod_cast hi)
  exact ha.elim hlow hhigh

/-! ## The frame of stores -/

theorem endsInSpan_of_exec {i : Instr} {s t : State} (hi : i = .rcDecode ∨ ∃ v, i = .lzDecompress v)
    (h : exec i s = .next t) : s.EndsInSpan t := by
  rcases hi with rfl | ⟨v, rfl⟩
  · exact rcDecode_endsInSpan h
  · exact lzDecompress_endsInSpan h

/-- However it ends, it has stored inside the destination span, from the cursor on. -/
theorem State.EndsInSpan.bytes {s t : State} (h : s.EndsInSpan t) : s.buf.WrittenIn s.markOverlap.taint
    (fun a => s.dst.base.toNat + s.dst.pos.toNat ≤ a ∧ a < s.dst.base.toNat + s.dst.len.toNat) t.buf := by
  rcases h with ⟨-, hlost⟩ | ⟨-, hroom, hbytes⟩
  · exact hlost
  · simp only [State.markOverlap_dst] at hroom hbytes
    exact hbytes.mono fun _ ha => by omega

/-- Settles O21: the addresses each command stores at. -/
theorem frameOfStores : Obligations.FrameOfStores := by
  refine ⟨fun i s t hi h => ?span, fun s t h => ⟨(golDecode_writtenIn h).1, fun a ha => ?golDecode⟩,
    fun s t h a ha => ?camDecblk, fun s t h a ha => ?camDecrange, fun s t h a ha => ?nekoDecrypt,
    fun d s t h a ha => ?xfStoref, fun d s t h a ha => (xfStore16_writtenIn h).get_out (not_namedSamples ha),
    fun d s t h a ha => (xfRestore_writtenIn h).get_out (not_namedSamples ha)⟩
  case span =>
    have he := endsInSpan_of_exec hi h
    refine ⟨fun a ha => he.bytes.get_out (by omega), fun _ herr => ?_⟩
    rcases he with ⟨herr', -⟩ | ⟨hadv, -, hbytes⟩
    · simp [herr] at herr'
    · exact ⟨hadv, fun a ha => hbytes.get_out (by simp only [State.markOverlap_dst]; omega)⟩
  case golDecode =>
    refine (golDecode_writtenIn h).2.get_out fun ⟨j, hj, haj⟩ => ha j hj ?_
    rw [haj, golOut_eq, Nat.zero_mul, Nat.add_zero]
  case camDecblk => exact (camDecblk_writtenIn h).get_out (by omega)
  case camDecrange => exact (camDecrange_writtenIn h).get_out (by omega)
  case nekoDecrypt => exact (nekoDecrypt_writtenIn h).get_out (by omega)
  case xfStoref => exact (xfStoref_writtenIn h).get_out (by omega)

/-! ## The results of a raced or overlapping command (R118, R119; log 15) -/

/-- `u`, reached by the tainted command started in `s`, still draws at its event, and its results are as they were or free. -/
structure State.Raced (s u : State) : Prop where
  tainted : u.tainted = true
  draws : u.draws = s.draws
  result : u.result = s.result ∨ u.result = Config.freeBits 32 s.draws 0
  result1 : u.result1 = s.result1 ∨ u.result1 = Config.freeBits 32 s.draws 1

namespace State.Raced

variable {s u : State}

theorem of_tainted (h : s.tainted = true) : s.Raced s := ⟨h, rfl, .inl rfl, .inl rfl⟩

theorem of_overlap (h : s.tainted = true ∨ s.spansOverlap = true) : s.Raced s.markOverlap :=
  ⟨Bool.or_eq_true_iff.mpr h, rfl, .inl rfl, .inl rfl⟩

variable (h : s.Raced u)
include h

theorem setRc (rc : Rc) : s.Raced { u with rc := rc } := { h with }

theorem setQs (q : Qs) : s.Raced { u with qs := q } := { h with }

theorem setHuf (x : Huf) : s.Raced { u with huf := x } := { h with }

theorem setGol (g : Gol) : s.Raced { u with gol := g } := { h with }

theorem setLz (z : Lz) : s.Raced { u with lz := z } := { h with }

theorem setNeko (k : Neko) : s.Raced { u with neko := k } := { h with }

theorem setBuf (buf : Store 8) : s.Raced { u with buf := buf } := { h with }

theorem withPos (io : Io) : s.Raced (u.withPos io) := { h with }

theorem withIo (io : Io) : s.Raced (u.withIo io) := { h with }

theorem setResult (v : Word) : s.Raced (u.setResult v) :=
  { h with result := .inr (by rw [State.setResult_result, if_pos h.tainted, h.draws]) }

theorem setResult1 (v : Word) : s.Raced (u.setResult1 v) :=
  { h with result1 := .inr (by rw [State.setResult1_result1, if_pos h.tainted, h.draws]) }

end State.Raced

/-- The results after a tainted command that completes. -/
def State.OldOrFreeResults (s t : State) : Prop :=
  (t.result = s.result ∨ t.result = Config.freeBits 32 s.draws 0)
    ∧ (t.result1 = s.result1 ∨ t.result1 = Config.freeBits 32 s.draws 1)

/-- A tainted command without an error has completed, with the results its body leaves. -/
theorem results_of_body {s t after : State} {id : CmdId} {checks : Run Unit} {body : Run State}
    (h : runCommand s id checks body after = .next t) (herr : t.err = false) (hb : Run.Meets body s.Raced) :
    s.OldOrFreeResults t := by
  rcases runCommand_cases h with ⟨r, -, rfl⟩ | ⟨u, -, hu, rfl⟩ | ⟨r, -, -, rfl⟩
  · cases herr
  · exact ⟨(hb.of_ok hu).result, (hb.of_ok hu).result1⟩
  · cases herr

theorem results_of_answer {s t u : State} {id : CmdId} {checks : Run Unit} (h : runCommand s id checks (.ok u) s = .next t)
    (herr : t.err = false) (hu : s.Raced u) : s.OldOrFreeResults t :=
  results_of_body h herr hu

theorem rcDecodeBody_raced {s u : State} (h : s.Raced u) : Run.Meets (rcDecodeBody u) s.Raced := by
  unfold rcDecodeBody
  split
  · exact h.setResult _
  · exact .bind (rcStartup_meets ..) fun ⟨_, _, _⟩ _ => .bind (rcDecodeFrom_stores ..) fun l _ =>
      ((((h.setRc l.rc).setQs l.qs).withIo _).setResult _).setResult1 _

theorem golDecodeBody_raced {s u : State} (h : s.Raced u) : Run.Meets (golDecodeBody u) s.Raced := by
  unfold golDecodeBody
  split
  · exact h.setResult _
  · exact .bind (srcBit_meets ..) fun ⟨_, _⟩ _ => .bind (golRuns_writtenIn ..) fun _ _ =>
      ((h.setGol _).withIo _).setResult _

theorem lzBody_raced {s u : State} (h : s.Raced u) (v : Nat) : Run.Meets (lzBody u v) s.Raced := by
  unfold lzBody
  split
  · exact h.setResult _
  · exact .bind (lzVariant_stores ..) fun _ _ => ((h.setLz _).withIo _).setResult _

/-- A raced command that completes: a command whose rule names no result leaves both, every other writes free ones. -/
theorem results_of_tainted {i : Instr} {s t : State} (ht : s.tainted = true) (h : exec i s = .next t) (herr : t.err = false) :
    s.OldOrFreeResults t := by
  have hs := State.Raced.of_tainted ht
  have ho := State.Raced.of_overlap (s := s) (.inl ht)
  have hgol : s.Raced s.golStart := by
    rcases golStart_cases s with he | he <;> rw [he] <;> assumption
  have hframe : namesResult i = false → namesResult1 i = false → s.OldOrFreeResults t := fun hr hr1 => by
    obtain ⟨u, hu, rfl | ⟨r, -, rfl⟩⟩ := exec_cases h
    · exact ⟨.inl (hu.result hr), .inl (hu.result1 hr1)⟩
    · cases herr
  cases i with
  | brGetbit => exact results_of_body h herr (.bind (srcBit_meets ..) fun ⟨_, _⟩ _ => (hs.withPos _).setResult _)
  | brGetbits n => exact results_of_body h herr (.bind (srcBits_meets ..) fun ⟨_, _⟩ _ => (hs.withPos _).setResult _)
  | brPeekbits n => exact results_of_answer h herr ((hs.setResult _).setResult1 _)
  | brAlign => exact results_of_answer h herr ((hs.withPos _).setResult _)
  | rcStart =>
    exact results_of_body h herr (.bind (rcStartup_meets ..) fun ⟨_, _, _⟩ _ => ((hs.setRc _).withPos _).setResult _)
  | rcCulshift sh =>
    exact results_of_body h herr (.bind (rcCulshift_meets ..) fun ⟨_, _, _⟩ _ => ((hs.setRc _).withPos _).setResult _)
  | rcNormalize =>
    exact results_of_body h herr (.bind (rcNormalize_meets ..) fun ⟨_, _, _⟩ _ => ((hs.setRc _).withPos _).setResult _)
  | rcDecode => exact results_of_body h herr (rcDecodeBody_raced ho)
  | qsGetsym => exact results_of_answer h herr (hs.setResult _)
  | qsGetfreq => exact results_of_answer h herr ((hs.setResult _).setResult1 _)
  | hufGetcode =>
    exact results_of_body h herr
      (.bind (hufDecodeTree_meets ..) fun ⟨_, _⟩ _ => (((hs.setHuf _).withPos _).setResult _).setResult1 _)
  | golGamma =>
    exact results_of_body h herr (.bind (eriGamma_meets ..) fun ⟨_, _, _⟩ _ => ((hs.withPos _).setResult _).setResult1 _)
  | golRunlen =>
    exact results_of_body h herr (.bind (runGamma_meets ..) fun ⟨_, _, _⟩ _ => ((hs.withPos _).setResult _).setResult1 _)
  | golValue =>
    exact results_of_body h herr
      (.bind (golValue_meets ..) fun _ _ => (((hs.setGol _).withPos _).setResult _).setResult1 _)
  | golDecode => exact results_of_body h herr (golDecodeBody_raced hgol)
  | lzDecompress v => exact results_of_body h herr (lzBody_raced ho _)
  | camDecrange => exact results_of_answer h herr ((hs.setBuf _).setResult _)
  | nekoDecrypt =>
    let buf := (nekoDecryptFrom s.taint ((s.arg 3).toNat / 8) (s.arg 2).toNat s.buf s.neko.key).1
    exact results_of_answer h herr (((hs.setBuf buf).setNeko _).setResult _)
  | _ => exact hframe rfl rfl

/-- The commands that overlapping spans taint (R119): those with both spans. -/
def State.OverlapTaints (s : State) (i : Instr) : Prop :=
  s.spansOverlap = true ∧ (i = .rcDecode ∨ (∃ v, i = .lzDecompress v) ∨ (i = .golDecode ∧ s.arg 0 ≠ 0))

theorem results_of_overlap {i : Instr} {s t : State} (ho : s.OverlapTaints i) (h : exec i s = .next t) (herr : t.err = false) :
    s.OldOrFreeResults t := by
  obtain ⟨ho, rfl | ⟨v, rfl⟩ | ⟨rfl, h0⟩⟩ := ho
  · exact results_of_body h herr (rcDecodeBody_raced (.of_overlap (.inr ho)))
  · exact results_of_body h herr (lzBody_raced (.of_overlap (.inr ho)) _)
  · have hgol : s.Raced s.golStart := by
      rw [State.golStart, if_neg h0]
      exact .of_overlap (.inr ho)
    exact results_of_body h herr (golDecodeBody_raced hgol)

/-! ## The bytes of a raced or overlapping command -/

theorem taint_of_tainted {s : State} (h : s.tainted = true) : s.taint.isSome = true := (State.taint_isSome s).trans h

theorem taint_of_overlap {s : State} (h : s.tainted = true ∨ s.spansOverlap = true) : s.markOverlap.taint.isSome = true :=
  (State.taint_isSome _).trans (Bool.or_eq_true_iff.mpr h)

theorem bytes_of_tainted {i : Instr} {s t : State} (ht : s.tainted = true) (h : exec i s = .next t) (a : Nat) :
    t.buf.get a = s.buf.get a ∨ ∃ k, t.buf.get a = Config.freeBits 8 k a := by
  have hs := taint_of_tainted ht
  have ho := taint_of_overlap (s := s) (.inl ht)
  have hgol : s.golStart.taint.isSome = true := by
    rcases golStart_cases s with he | he <;> rw [he] <;> assumption
  have hframe : storing i = false → t.buf.get a = s.buf.get a := fun hi => by
    obtain ⟨u, hu, rfl | ⟨r, -, rfl⟩⟩ := exec_cases h <;> exact congrArg (·.get a) (hu.buf hi)
  cases i with
  | rcDecode => exact (rcDecode_endsInSpan h).bytes.old_or_free ho a
  | lzDecompress v => exact (lzDecompress_endsInSpan h).bytes.old_or_free ho a
  | golDecode => exact (golDecode_writtenIn h).2.old_or_free hgol a
  | camDecblk => exact (camDecblk_writtenIn h).old_or_free hs a
  | camDecrange => exact (camDecrange_writtenIn h).old_or_free hs a
  | nekoDecrypt => exact (nekoDecrypt_writtenIn h).old_or_free hs a
  | xfStoref d => exact (xfStoref_writtenIn h).old_or_free hs a
  | xfStore16 d => exact (xfStore16_writtenIn h).old_or_free hs a
  | xfRestore d => exact (xfRestore_writtenIn h).old_or_free hs a
  | _ => exact .inl (hframe rfl)

theorem bytes_of_overlap {i : Instr} {s t : State} (ho : s.OverlapTaints i) (h : exec i s = .next t) (a : Nat) :
    t.buf.get a = s.buf.get a ∨ ∃ k, t.buf.get a = Config.freeBits 8 k a := by
  obtain ⟨ho, rfl | ⟨v, rfl⟩ | ⟨rfl, h0⟩⟩ := ho
  · exact (rcDecode_endsInSpan h).bytes.old_or_free (taint_of_overlap (.inr ho)) a
  · exact (lzDecompress_endsInSpan h).bytes.old_or_free (taint_of_overlap (.inr ho)) a
  · have hgol : s.golStart.taint.isSome = true := by
      rw [State.golStart, if_neg h0]
      exact taint_of_overlap (.inr ho)
    exact (golDecode_writtenIn h).2.old_or_free hgol a

/-- Settles O13: the host's racing writes, the command's results and bytes, the host's racing reads. -/
theorem racedCommandOutputIsFree : Obligations.RacedCommandOutputIsFree := by
  refine ⟨fun s off v hb ha hr => ?operand, fun s addr width v hb hin => ?bufStore, fun s t i h hr => ?command,
    fun s addr width hb hin => ⟨s.draws, bufLoad_raced hb hin⟩, fun s off r hb hr => ?reads⟩
  case operand =>
    obtain ⟨r, hoff, hop⟩ := regAt_operand off ha hr
    rw [store_word ha hoff]
    exact writeReg_operand hop hb v
  case bufStore =>
    rw [bufStore_raced hb hin]
    refine ⟨Bool.or_eq_true_iff.mpr (.inr hb), fun j hj => ⟨s.draws, ?_⟩⟩
    rw [State.endDraws_buf, State.race_buf, Store.get_setSpan, if_pos (by omega)]
  case command =>
    rcases hr with ht | ho
    · exact ⟨fun _ => results_of_tainted ht h, bytes_of_tainted ht h⟩
    · exact ⟨fun _ => results_of_overlap ho h, bytes_of_overlap ho h⟩
  case reads =>
    obtain ⟨ha, hracy, hown⟩ := regAt_racy off r hr
    rw [load_word_readReg ha hr]
    exact ⟨fun ho => readReg_racy hb (hracy ho) ▸ racedRead_value s r, fun ho => readReg_own (hown ho)⟩

end Sys2Proof.Machine
end

section
/-! PROOFS. Reading a stream of known bits (20_memory.md R106, R107), and the values that reads of the decoders take from it. -/

namespace Sys2Proof.Machine

/-! ## A source that holds known bits -/

/-- From cursor `p` on the source holds these bits, as a command with spans `e` reads them from `buf`. -/
def Feeds (e : Env) (buf : Store 8) (p : Nat) (bits : List Nat) : Prop :=
  p + bits.length ≤ 8 * e.srcLen ∧ ∀ i, (h : i < bits.length) → bitNat (bitAt e buf (p + i)) = bits[i]

theorem feeds_of_holdsBits {s : State} {p : Nat} {bits : List Nat} (h : s.holdsBits p bits) : Feeds s.env s.buf p bits :=
  ⟨h.1, fun i hi => (bitNat_bitAt s _).trans (h.2 i hi)⟩

namespace Feeds

variable {e : Env} {buf : Store 8} {p : Nat} {bits xs ys : List Nat} {b : Nat}

theorem left (h : Feeds e buf p (xs ++ ys)) : Feeds e buf p xs := by
  obtain ⟨hlen, hbits⟩ := h
  rw [List.length_append] at hlen
  refine ⟨by omega, fun i hi => ?_⟩
  rw [hbits i (by rw [List.length_append]; omega), List.getElem_append_left hi]

theorem right (h : Feeds e buf p (xs ++ ys)) : Feeds e buf (p + xs.length) ys := by
  obtain ⟨hlen, hbits⟩ := h
  rw [List.length_append] at hlen
  refine ⟨by omega, fun i hi => ?_⟩
  rw [Nat.add_assoc, hbits (xs.length + i) (by rw [List.length_append]; omega),
    List.getElem_append_right (Nat.le_add_right _ _)]
  simp

theorem tail (h : Feeds e buf p (b :: bits)) : Feeds e buf (p + 1) bits := right (xs := [b]) h

theorem head (h : Feeds e buf p (b :: bits)) : p < 8 * e.srcLen ∧ bitNat (bitAt e buf p) = b := by
  obtain ⟨hlen, hbits⟩ := h
  rw [List.length_cons] at hlen
  exact ⟨by omega, hbits 0 (by simp)⟩

/-- A store outside the source span leaves the stream. -/
theorem putByte (h : Feeds e buf p bits) {a : Nat} (ha : ∀ k < e.srcLen, a ≠ e.srcBase + k) (taint : Option Nat) (v : Byte) :
    Feeds e (putByte taint buf a v) p bits := by
  obtain ⟨hlen, hbits⟩ := h
  refine ⟨hlen, fun i hi => ?_⟩
  rw [← hbits i hi]
  unfold bitAt
  rw [putByte_get_out (Ne.symm (ha _ (by omega)))]

end Feeds

/-! ## Reads of single bits and fields -/

theorem srcBit_feeds {e : Env} {io : Io} {b : Nat} {bits : List Nat} (h : Feeds e io.buf io.pos (b :: bits)) :
    srcBit e io = .ok (b, { io with pos := io.pos + 1 }) := by
  obtain ⟨hpos, hb⟩ := h.head
  rw [srcBit_of_lt hpos, hb]

theorem srcBits_feeds {e : Env} {io : Io} {n v : Nat} (h : Feeds e io.buf io.pos (fieldBits e.lsb n v)) :
    srcBits e n io = .ok (v % 2 ^ n, { io with pos := io.pos + n }) := by
  obtain ⟨hlen, hbits⟩ := h
  have hn : (fieldBits e.lsb n v).length = n := by simp [fieldBits]
  rw [hn] at hlen
  rw [srcBits_field hlen, ← fieldValue_bits e.lsb n v]
  congr 2
  refine fieldValue_congr fun i hi => ?_
  rw [hbits i (by omega)]
  simp [fieldBits]

/-- A run of zeros up to its one. -/
theorem runZeros_feeds {e : Env} {z left q : Nat} {io : Io} {bits : List Nat} (hz : z ≤ left)
    (h : Feeds e io.buf io.pos (List.replicate z 0 ++ 1 :: bits)) :
    runZeros e left q io = .ok (q + z, { io with pos := io.pos + z + 1 }) := by
  induction z generalizing left q io with
  | zero =>
    unfold runZeros
    rw [srcBit_feeds h]
    rfl
  | succ z ih =>
    obtain ⟨left, rfl⟩ : ∃ k, left = k + 1 := ⟨left - 1, by omega⟩
    rw [List.replicate_succ, List.cons_append] at h
    unfold runZeros
    rw [srcBit_feeds h]
    refine (ih (io := { io with pos := io.pos + 1 }) (by omega) h.tail).trans ?_
    simp [Nat.add_assoc, Nat.add_comm 1]

/-! ## Run lengths (43_golomb_gamma.md R301) -/

theorem fieldBits_length (lsb : Bool) (n v : Nat) : (fieldBits lsb n v).length = n := by simp [fieldBits]

theorem runCode_length (lsb : Bool) (v : Nat) : (runCode lsb v).length = 2 * v.log2 + 1 := by
  simp [runCode, fieldBits_length]
  omega

/-- A run length of at most 32 bits decodes to itself. -/
theorem runGamma_feeds {e : Env} {io : Io} {v : Nat} (h1 : 1 ≤ v) (hv : v < 2 ^ 32)
    (h : Feeds e io.buf io.pos (runCode e.lsb v)) :
    runGamma e io = .ok (v, 2 * v.log2 + 1, { io with pos := io.pos + (runCode e.lsb v).length }) := by
  have hz : v.log2 ≤ 31 := Nat.le_of_lt_succ ((Nat.log2_lt (by omega)).mpr hv)
  have hlow : 2 ^ v.log2 ≤ v := Nat.log2_self_le (by omega)
  have hhigh : v < 2 ^ (v.log2 + 1) := Nat.lt_log2_self
  have hbits := h.right.tail
  rw [List.length_replicate] at hbits
  have hrest : (v - 2 ^ v.log2) % 2 ^ v.log2 = v - 2 ^ v.log2 := Nat.mod_eq_of_lt (by rw [Nat.pow_succ] at hhigh; omega)
  have hfield := srcBits_feeds (io := { io with pos := io.pos + v.log2 + 1 }) hbits
  unfold runGamma
  rw [runZeros_feeds hz h, Run.ok_bind]
  simp only [Nat.zero_add, hfield, Run.ok_bind, hrest]
  rw [Nat.add_sub_cancel' hlow, runCode_length]
  simp only [pure, Except.pure, Except.ok.injEq, Prod.mk.injEq, true_and]
  congr 1
  omega

/-! ## Coded values (R316, R318) -/

/-- The sums of a row's first entries. -/
def runningSums (c : Nat) (row : List Nat) : List Nat :=
  match row with
  | [] => []
  | x :: rest => (c + x) :: runningSums (c + x) rest

theorem golombBounds_eq : ∀ n : BitVec 2, golombBounds n = runningSums 0 (golCompressed n) := by decide

theorem firstBelow_eq_findIdx (row : List Nat) (c a : Nat) :
    firstBelow row a = (runningSums c row).findIdx (fun b => decide (c + a < b)) := by
  induction row generalizing c a with
  | nil => rfl
  | cons x rest ih =>
    rw [firstBelow, runningSums, List.findIdx_cons]
    by_cases hx : a < x
    · simp [hx]
    · have hsum : c + x + (a - x) = c + a := by omega
      simp only [hx, if_false, Nat.add_lt_add_iff_left, decide_false, cond_false]
      rw [ih (c + x), hsum, Nat.add_comm]

/-- GOL_TABLE from the counts of R316 and from their sums. -/
theorem golTable_eq_golombLength (g : Gol) : golTable g.a.toNat g.n = golombLength g := by
  rw [golTable, golombLength, golombBounds_eq, firstBelow_eq_findIdx _ 0]
  simp

theorem golombCode_length (lsb : Bool) (k v : Nat) : (golombCode lsb k v).length = v / 2 ^ k + 1 + k := by
  simp [golombCode, fieldBits_length]
  omega

/-- A coded value whose unary part is read bit by bit decodes to its residual. -/
theorem golValue_feeds {e : Env} {g : Gol} {io : Io} {v : Nat} (hp : golPrefix e io = golUnary e 255 0 io)
    (ha : g.a.toNat < 1024) (hq : v / 2 ^ golombLength g ≤ 255)
    (h : Feeds e io.buf io.pos (golombCode e.lsb (golombLength g) v)) :
    golValue e g io = .ok ⟨residualOf v, golombLength g, golombNext g v,
      { io with pos := io.pos + (golombCode e.lsb (golombLength g) v).length }⟩ := by
  have hprefix : golPrefix e io = .ok (v / 2 ^ golombLength g, { io with pos := io.pos + v / 2 ^ golombLength g + 1 }) := by
    rw [hp, golUnary_eq_runZeros, runZeros_feeds hq h, Nat.zero_add]
  have hbits := h.right.tail
  rw [List.length_replicate] at hbits
  have hfield := srcBits_feeds (io := { io with pos := io.pos + v / 2 ^ golombLength g + 1 }) hbits
  have hvalue : v / 2 ^ golombLength g * 2 ^ golombLength g + v % 2 ^ golombLength g = v := by
    rw [Nat.mul_comm]
    exact Nat.div_add_mod v _
  unfold golValue
  rw [if_neg (by omega), golTable_eq_golombLength, hprefix]
  simp only [Run.ok_bind, hfield, Nat.mod_mod, hvalue]
  rw [golombCode_length]
  simp only [Nat.add_assoc]
  rfl

/-! ## The window of R318 -/

/-- A bit of a little-endian value is a bit of one of its bytes. -/
theorem testBit_leNat (bytes : List Byte) (j : Nat) :
    (leNat bytes).testBit j = (bytes.getD (j / 8) 0).getLsbD (j % 8) := by
  induction bytes generalizing j with
  | nil => simp [leNat]
  | cons b rest ih =>
    rw [leNat, Nat.add_comm, show (256 : Nat) = 2 ^ 8 from rfl, Nat.testBit_two_pow_mul_add _ b.isLt]
    by_cases hj : j < 8
    · rw [if_pos hj, Nat.div_eq_of_lt hj, Nat.mod_eq_of_lt hj]
      rfl
    · rw [if_neg hj, ih, show j / 8 = (j - 8) / 8 + 1 by omega, show (j - 8) % 8 = j % 8 by omega]
      rfl

/-- A one bit of the source within the window makes the window nonzero. -/
theorem window32_ne_zero {e : Env} {io : Io} {n : Nat} (hlsb : e.lsb = true) (hn : io.pos % 8 + n < 32)
    (hin : io.pos + n < 8 * e.srcLen) (hbit : bitNat (bitAt e io.buf (io.pos + n)) = 1) : window32 e io ≠ 0 := by
  have hone : (io.buf.get (e.srcBase + (io.pos + n) / 8)).getLsbD ((io.pos + n) % 8) = true := by
    unfold bitAt bitNat at hbit
    rw [hlsb] at hbit
    simpa using hbit
  intro hw
  have h0 : (window32 e io).testBit n = false := by rw [hw, Nat.zero_testBit]
  have hoff : io.pos / 8 + (io.pos % 8 + n) / 8 = (io.pos + n) / 8 := by omega
  have hmod : (io.pos % 8 + n) % 8 = (io.pos + n) % 8 := by omega
  rw [window32, Nat.testBit_shiftRight, testBit_leNat, List.getD_eq_getElem _ _ (by simp; omega), List.getElem_map,
    List.getElem_range, hoff, hmod, spanByte, if_pos (by omega), hone] at h0
  cases h0

/-- The unary part is read bit by bit in the MSB-first order, and when a one bit comes within the window (R318). -/
theorem golPrefix_msb {e : Env} (h : e.lsb = false) (io : Io) : golPrefix e io = golUnary e 255 0 io := by
  simp [golPrefix, h]

theorem golPrefix_window {e : Env} {io : Io} (h : window32 e io ≠ 0) : golPrefix e io = golUnary e 255 0 io := by
  simp [golPrefix, h]

end Sys2Proof.Machine
end

section
/-! PROOFS. GOL_DECODE on a block of runs (43_golomb_gamma.md R320): what it stores, where, and where it stops. -/

namespace Sys2Proof.Machine

/-! ## Bytes stored at a stride -/

/-- BUF with `bytes` stored from `a` on, `stride` apart. -/
def putStrided (buf : Store 8) (a stride : Nat) (bytes : List Byte) : Store 8 :=
  match bytes with
  | [] => buf
  | b :: rest => putStrided (putByte none buf a b) (a + stride) stride rest

theorem putStrided_append (buf : Store 8) (a stride : Nat) (xs ys : List Byte) :
    putStrided buf a stride (xs ++ ys) = putStrided (putStrided buf a stride xs) (a + xs.length * stride) stride ys := by
  induction xs generalizing buf a with
  | nil => simp [putStrided]
  | cons b rest ih =>
    rw [List.cons_append, putStrided, ih, putStrided, List.length_cons, Nat.succ_mul, Nat.add_assoc, Nat.add_comm stride]

theorem putStrided_get_out (buf : Store 8) {a stride x : Nat} {bytes : List Byte}
    (h : ∀ j < bytes.length, x ≠ a + j * stride) : (putStrided buf a stride bytes).get x = buf.get x := by
  induction bytes generalizing buf a with
  | nil => rfl
  | cons b rest ih =>
    have h0 : x ≠ a := by simpa using h 0 (by simp)
    rw [putStrided, ih _ fun j hj => ?_, putByte_get_out h0]
    have := h (j + 1) (by simpa using hj)
    rw [Nat.succ_mul] at this
    omega

theorem putStrided_get (buf : Store 8) {a stride : Nat} (hs : 0 < stride) (bytes : List Byte) (j : Nat)
    (h : j < bytes.length) : (putStrided buf a stride bytes).get (a + j * stride) = bytes[j] := by
  induction bytes generalizing buf a j with
  | nil => simp at h
  | cons b rest ih =>
    rw [putStrided]
    cases j with
    | zero =>
      rw [putStrided_get_out _ fun j _ => by omega]
      simp [putByte_get]
    | succ j =>
      have := ih (putByte none buf a b) (a := a + stride) j (by simpa using h)
      rw [Nat.succ_mul, Nat.add_comm (j * stride), ← Nat.add_assoc, this]
      rfl

/-- Addresses `stride` apart that are not in the source span. -/
def Apart (e : Env) (a stride n : Nat) : Prop := ∀ j < n, ∀ k < e.srcLen, a + j * stride ≠ e.srcBase + k

theorem Apart.first {e : Env} {a stride n : Nat} (h : Apart e a stride (n + 1)) : ∀ k < e.srcLen, a ≠ e.srcBase + k :=
  fun k hk => by simpa using h 0 (by omega) k hk

theorem Apart.rest {e : Env} {a stride n : Nat} (h : Apart e a stride (n + 1)) : Apart e (a + stride) stride n :=
  fun j hj k hk => by
    have := h (j + 1) (by omega) k hk
    rw [Nat.succ_mul] at this
    omega

theorem Apart.from {e : Env} {a stride i n count : Nat} (h : Apart e a stride count) (hn : i + n ≤ count) :
    Apart e (a + i * stride) stride n := fun j hj k hk => by
  have := h (i + j) (by omega) k hk
  rw [Nat.add_mul] at this
  omega

theorem Feeds.putStrided {e : Env} {buf : Store 8} {p a stride : Nat} {bits : List Nat} {bytes : List Byte}
    (h : Feeds e buf p bits) (ha : Apart e a stride bytes.length) : Feeds e (putStrided buf a stride bytes) p bits := by
  induction bytes generalizing buf a with
  | nil => exact h
  | cons b rest ih => exact ih (h.putByte ha.first none b) ha.rest

/-! ## One run -/

/-- The codes of the values of one run: a zero run has none. -/
def runValuesCode (zero : Bool) (g : Gol) (vs : List Nat) : List Nat := if zero then [] else golValuesCode g vs

/-- The context after one run. -/
def runNext (zero : Bool) (g : Gol) (vs : List Nat) : Gol := if zero then g else vs.foldl golombNext g

/-- The bytes one run stores. -/
def runBytes (zero : Bool) (vs : List Nat) : List Byte := vs.map (fun v => if zero then 0 else (residualOf v).setWidth 8)

theorem runBytes_length (zero : Bool) (vs : List Nat) : (runBytes zero vs).length = vs.length := List.length_map ..

theorem golRunsCode_cons (zero : Bool) (g : Gol) (vs : List Nat) (rest : List (List Nat)) :
    golRunsCode zero g (vs :: rest) =
      runCode false vs.length ++ (runValuesCode zero g vs ++ golRunsCode (!zero) (runNext zero g vs) rest) := by
  cases zero <;> simp [golRunsCode, runValuesCode, runNext]

theorem golRunsNext_cons (zero : Bool) (g : Gol) (vs : List Nat) (rest : List (List Nat)) :
    golRunsNext zero g (vs :: rest) = golRunsNext (!zero) (runNext zero g vs) rest := by
  cases zero <;> simp [golRunsNext, runNext]

theorem golRunsBytes_cons (zero : Bool) (vs : List Nat) (rest : List (List Nat)) :
    golRunsBytes zero (vs :: rest) = runBytes zero vs ++ golRunsBytes (!zero) rest := rfl

theorem golRunsCodable_cons {zero : Bool} {g : Gol} {vs : List Nat} {rest : List (List Nat)}
    (h : golRunsCodable zero g (vs :: rest)) :
    vs ≠ [] ∧ (zero = false → golCodable g vs) ∧ golRunsCodable (!zero) (runNext zero g vs) rest := by
  cases zero with
  | true => exact ⟨h.1, nofun, h.2⟩
  | false => exact ⟨h.1, fun _ => h.2.1, h.2.2⟩

theorem golRun_zeros {e : Env} (ht : e.taint = none) (stride a : Nat) (vs : List Nat) (l : GolLoop) :
    golRun e true stride vs.length a l =
      .ok { l with io := { l.io with buf := putStrided l.io.buf a stride (runBytes true vs) } } := by
  induction vs generalizing a l with
  | nil => rfl
  | cons v rest ih =>
    rw [List.length_cons, golRun, if_pos rfl, ih, ht]
    rfl

theorem golRun_zeroRun {e : Env} (ht : e.taint = none) (stride c a : Nat) (l : GolLoop) :
    golRun e true stride c a l =
      .ok { l with io := { l.io with buf := putStrided l.io.buf a stride (List.replicate c 0) } } := by
  have h := golRun_zeros ht stride a (List.replicate c 0) l
  rwa [List.length_replicate, runBytes, List.map_replicate] at h

theorem golRun_values {e : Env} (ht : e.taint = none) (hlsb : e.lsb = false) {stride a : Nat} {g : Gol} {vs : List Nat} {io : Io}
    (hc : golCodable g vs) (hf : Feeds e io.buf io.pos (golValuesCode g vs)) (ha : Apart e a stride vs.length) :
    golRun e false stride vs.length a ⟨g, io⟩ = .ok ⟨vs.foldl golombNext g, { io with
      buf := putStrided io.buf a stride (runBytes false vs)
      pos := io.pos + (golValuesCode g vs).length }⟩ := by
  induction vs generalizing a g io with
  | nil => rfl
  | cons v rest ih =>
    obtain ⟨hacc, hq, hrest⟩ := hc
    rw [golValuesCode] at hf ⊢
    rw [List.length_cons, golRun, if_neg Bool.false_ne_true,
      golValue_feeds (golPrefix_msb hlsb io) hacc hq (by rw [hlsb]; exact hf.left)]
    simp only [hlsb, ht]
    refine (ih hrest (hf.right.putByte ha.first none _) ha.rest).trans ?_
    simp [runBytes, putStrided, Nat.add_assoc]

/-- A run stores its bytes and moves the cursor past its codes. -/
theorem golRun_feeds {e : Env} (ht : e.taint = none) (hlsb : e.lsb = false) {zero : Bool} {stride a : Nat} {g : Gol}
    {vs : List Nat} {io : Io} (hc : zero = false → golCodable g vs) (hf : Feeds e io.buf io.pos (runValuesCode zero g vs))
    (ha : Apart e a stride vs.length) :
    golRun e zero stride vs.length a ⟨g, io⟩ = .ok ⟨runNext zero g vs, { io with
      buf := putStrided io.buf a stride (runBytes zero vs)
      pos := io.pos + (runValuesCode zero g vs).length }⟩ := by
  cases zero with
  | true => exact golRun_zeros ht stride a vs _
  | false => exact golRun_values ht hlsb (hc rfl) hf ha

/-! ## All the runs -/

/-- One turn of the loop of R320: a run length that fits, then the run. -/
theorem golRuns_step {e : Env} {stride count base fuel i c len : Nat} {zero : Bool} {l l' : GolLoop} {io : Io} (h1 : 1 ≤ c)
    (hi : i + c ≤ count) (hg : runGamma e l.io = .ok (c, len, io))
    (hr : golRun e zero stride c (base + i * stride) { l with io := io } = .ok l') :
    golRuns e stride count base (fuel + 1) i zero l = golRuns e stride count base fuel (i + c) (!zero) l' := by
  rw [golRuns, if_pos (by omega), hg]
  dsimp only
  rw [if_neg (by omega), hr]

/-- The loop ends when the count is reached. -/
theorem golRuns_end (e : Env) (stride count base fuel : Nat) (zero : Bool) (l : GolLoop) :
    golRuns e stride count base fuel count zero l = .ok l := by
  cases fuel with
  | zero => rfl
  | succ fuel => rw [golRuns, if_neg (Nat.lt_irrefl _)]

/-- A run that passes the count is refused with its end. -/
theorem golRuns_overrun {e : Env} {stride count base fuel i c len : Nat} {zero : Bool} {l : GolLoop} {io : Io} (hi : i < count)
    (hc : count < i + c) (hg : runGamma e l.io = .ok (c, len, io)) :
    golRuns e stride count base (fuel + 1) i zero l = .error ⟨.formatError, wordOf (i + c)⟩ := by
  rw [golRuns, if_pos hi, hg]
  exact if_pos hc

/-- The loop over known runs: it goes on after them, in the context they leave, with their bytes stored and their codes read. -/
theorem golRuns_feeds {e : Env} {stride count base : Nat} (ht : e.taint = none) (hlsb : e.lsb = false) (hcount : count < 2 ^ 32)
    (ha : Apart e base stride count) {runs : List (List Nat)} {zero : Bool} {g : Gol} {io : Io} {i fuel : Nat}
    (hc : golRunsCodable zero g runs) (hlen : i + (golRunsBytes zero runs).length ≤ count) (hfuel : count - i ≤ fuel)
    (hf : Feeds e io.buf io.pos (golRunsCode zero g runs)) :
    ∃ fuel' zero', count - (i + (golRunsBytes zero runs).length) ≤ fuel'
      ∧ golRuns e stride count base fuel i zero ⟨g, io⟩ =
        golRuns e stride count base fuel' (i + (golRunsBytes zero runs).length) zero' ⟨golRunsNext zero g runs, { io with
          buf := putStrided io.buf (base + i * stride) stride (golRunsBytes zero runs)
          pos := io.pos + (golRunsCode zero g runs).length }⟩ := by
  induction runs generalizing zero g io i fuel with
  | nil => exact ⟨fuel, zero, hfuel, rfl⟩
  | cons vs rest ih =>
    obtain ⟨hne, hvals, hrest⟩ := golRunsCodable_cons hc
    have hpos : 1 ≤ vs.length := List.length_pos_iff.mpr hne
    rw [golRunsBytes_cons, List.length_append, runBytes_length, ← Nat.add_assoc] at hlen ⊢
    rw [golRunsCode_cons] at hf ⊢
    rw [golRunsNext_cons]
    obtain ⟨fuel, rfl⟩ : ∃ k, fuel = k + 1 := ⟨fuel - 1, by omega⟩
    have hgamma := runGamma_feeds (io := io) hpos (by omega) (by rw [hlsb]; exact hf.left)
    rw [hlsb] at hgamma
    have hrun := golRun_feeds (a := base + i * stride) (io := { io with pos := io.pos + (runCode false vs.length).length })
      ht hlsb hvals hf.right.left (ha.from (by omega))
    have hnext := (hf.right.right).putStrided (bytes := runBytes zero vs) (a := base + i * stride) (stride := stride)
      (by rw [runBytes_length]; exact ha.from (by omega))
    rw [golRuns_step hpos (by omega) hgamma hrun]
    obtain ⟨fuel', zero', hfuel', heq⟩ := ih (fuel := fuel) (io := { io with
      buf := putStrided io.buf (base + i * stride) stride (runBytes zero vs)
      pos := io.pos + (runCode false vs.length).length + (runValuesCode zero g vs).length }) hrest hlen (by omega) hnext
    refine ⟨fuel', zero', hfuel', heq.trans ?_⟩
    simp [putStrided_append, runBytes_length, Nat.add_mul, Nat.add_assoc]

/-! ## The command -/

/-- A state in which GOL_DECODE passes its checks and its output is determined. -/
structure State.GolReady (s : State) : Prop where
  calm : s.calm
  src : s.srcInBounds = true
  dst : s.dstInBounds = true
  count : s.arg 0 ≠ 0
  stride : s.arg 1 ≠ 0
  fits : s.dst.pos.toNat + ((s.arg 0).toNat - 1) * (s.arg 1).toNat < s.dst.len.toNat

theorem markOverlap_of_calm {s : State} (h : s.calm) : s.markOverlap = s := by
  obtain ⟨ht, ho⟩ := h
  have htaint : (s.tainted || s.spansOverlap) = s.tainted := by rw [ho, Bool.or_false]
  rw [State.markOverlap, htaint]

theorem taint_of_calm {s : State} (h : s.calm) : s.env.taint = none := by
  show s.taint = none
  simp [State.taint, h.1]

/-- Without an overlap no address of the destination span is in the source span. -/
theorem apart_of_calm {s : State} (h : s.calm) {a k : Nat} (hlo : s.dst.base.toNat ≤ a)
    (hhi : a < s.dst.base.toNat + s.dst.len.toNat) (hk : k < s.src.len.toNat) : a ≠ s.src.base.toNat + k := by
  have ho := h.2
  simp only [State.spansOverlap, Bool.and_eq_false_iff, decide_eq_false_iff_not] at ho
  omega

namespace State.GolReady

variable {s : State} (h : s.GolReady)
include h

theorem checks : s.checkGolDecode = .ok () := by
  rw [checkGolDecode_spans h.count h.stride, checkSrc_ok h.src, checkDst_ok h.dst]
  exact require_ok.mpr (by simpa using h.fits)

theorem start : s.golStart = s := by
  rw [State.golStart, if_neg h.count, markOverlap_of_calm h.calm]

theorem stride_pos : 0 < (s.arg 1).toNat := Nat.pos_of_ne_zero fun h0 => h.stride (BitVec.eq_of_toNat_eq h0)

theorem count_pos : 0 < (s.arg 0).toNat := Nat.pos_of_ne_zero fun h0 => h.count (BitVec.eq_of_toNat_eq h0)

/-- Its outputs are not in the source span. -/
theorem apart : Apart s.env (s.golOut 0) (s.arg 1).toNat (s.arg 0).toNat := fun j hj k hk => by
  have hfits := h.fits
  have hm : j * (s.arg 1).toNat ≤ ((s.arg 0).toNat - 1) * (s.arg 1).toNat := Nat.mul_le_mul_right _ (by omega)
  exact apart_of_calm h.calm (by rw [golOut_eq]; omega) (by rw [golOut_eq]; omega) hk

/-- When its first bit and its runs are read, it completes with what they leave. -/
theorem completes {b : Nat} {zero : Bool} {io io' : Io} {g : Gol} (hz : (b == 0) = zero)
    (hb : srcBit s.env s.io = .ok (b, io))
    (hr : golRuns s.env (s.arg 1).toNat (s.arg 0).toNat (s.golOut 0) (s.arg 0).toNat 0 zero ⟨⟨0, 3⟩, io⟩ = .ok ⟨g, io'⟩)
    (hout : io'.out = s.dst.pos.toNat) : exec .golDecode s =
      .next ((({ s with gol := g, buf := io'.buf }.atBit io'.pos).setResult (s.arg 0)).finished) := by
  refine runCommand_complete h.checks ?_
  show golDecodeBody s.golStart = _
  rw [h.start, golDecodeBody, if_neg h.count, hb]
  simp only [Run.ok_bind, hz, hr, pure, Except.pure]
  simp [State.withIo, hout, State.atBit, wordOf]

theorem raises_body {b : Nat} {zero : Bool} {io : Io} {r : Raise} (hz : (b == 0) = zero)
    (hb : srcBit s.env s.io = .ok (b, io))
    (hr : golRuns s.env (s.arg 1).toNat (s.arg 0).toNat (s.golOut 0) (s.arg 0).toNat 0 zero ⟨⟨0, 3⟩, io⟩ = .error r) :
    raises .golDecode s 5 4 r.err.code r.info := by
  refine raises_of_body (by decide) (by decide) rfl h.checks ?_
  show golDecodeBody s.golStart = _
  rw [h.start, golDecodeBody, if_neg h.count, hb]
  simp only [Run.ok_bind, hz, hr, Run.error_bind]

end State.GolReady

/-- What the stored bytes of a block read as, and what they leave (R320). -/
theorem putStrided_outputs {s : State} (hs : 0 < (s.arg 1).toNat) {bytes : List Byte} (hlen : (s.arg 0).toNat = bytes.length) :
    (∀ j, (h : j < bytes.length) → (putStrided s.buf (s.golOut 0) (s.arg 1).toNat bytes).get
      (s.dst.base.toNat + s.dst.pos.toNat + j * (s.arg 1).toNat) = bytes[j])
    ∧ ∀ a, (∀ j < (s.arg 0).toNat, a ≠ s.dst.base.toNat + s.dst.pos.toNat + j * (s.arg 1).toNat) →
      (putStrided s.buf (s.golOut 0) (s.arg 1).toNat bytes).get a = s.buf.get a := by
  have h0 : s.golOut 0 = s.dst.base.toNat + s.dst.pos.toNat := by rw [golOut_eq, Nat.zero_mul, Nat.add_zero]
  rw [h0]
  exact ⟨putStrided_get _ hs bytes, fun a ha => putStrided_get_out _ fun j hj => ha j (hlen ▸ hj)⟩

/-- The first value of a block is coded with no low bits. -/
theorem golombLength_start : golombLength ⟨0, 3⟩ = 0 := by decide

section

variable {s : State} (h : s.GolReady)
include h

/-- A block of known runs that fills the count. -/
theorem golDecode_block (hlsb : s.lsb = false) {zero : Bool} {runs : List (List Nat)} (hc : golRunsCodable zero ⟨0, 3⟩ runs)
    (hlen : (s.arg 0).toNat = (golRunsBytes zero runs).length)
    (hf : s.holdsBits s.src.pos.toNat ((if zero then 0 else 1) :: golRunsCode zero ⟨0, 3⟩ runs)) :
    exec .golDecode s = .next ((({ s with
      gol := golRunsNext zero ⟨0, 3⟩ runs
      buf := putStrided s.buf (s.golOut 0) (s.arg 1).toNat (golRunsBytes zero runs) }.atBit
        (s.src.pos.toNat + 1 + (golRunsCode zero ⟨0, 3⟩ runs).length)).setResult (s.arg 0)).finished) := by
  have hfeeds := feeds_of_holdsBits hf
  have hfirst : ((if zero then 0 else 1 : Nat) == 0) = zero := by cases zero <;> rfl
  have hb := srcBit_feeds (e := s.env) (io := s.io) hfeeds
  obtain ⟨fuel, zero', -, heq⟩ := golRuns_feeds (io := ⟨s.buf, s.src.pos.toNat + 1, s.dst.pos.toNat⟩) (i := 0)
    (fuel := (s.arg 0).toNat) (taint_of_calm h.calm) hlsb (s.arg 0).isLt h.apart hc (by omega) (Nat.sub_le _ _) hfeeds.tail
  rw [Nat.zero_add, ← hlen, golRuns_end, Nat.zero_mul, Nat.add_zero] at heq
  exact h.completes hfirst hb heq rfl

/-- A run that passes the count after known runs. -/
theorem golDecode_overrun (hlsb : s.lsb = false) {zero : Bool} {runs : List (List Nat)} (hc : golRunsCodable zero ⟨0, 3⟩ runs)
    {c : Nat} (hc32 : c < 2 ^ 32) (hlen : (golRunsBytes zero runs).length < (s.arg 0).toNat)
    (hover : (s.arg 0).toNat < (golRunsBytes zero runs).length + c)
    (hf : s.holdsBits s.src.pos.toNat ((if zero then 0 else 1) :: (golRunsCode zero ⟨0, 3⟩ runs ++ runCode false c))) :
    raises .golDecode s 5 4 1 (BitVec.ofNat 32 ((golRunsBytes zero runs).length + c)) := by
  have hfeeds := feeds_of_holdsBits hf
  have hfirst : ((if zero then 0 else 1 : Nat) == 0) = zero := by cases zero <;> rfl
  have hb := srcBit_feeds (e := s.env) (io := s.io) hfeeds
  obtain ⟨fuel, zero', hfuel, heq⟩ := golRuns_feeds (io := ⟨s.buf, s.src.pos.toNat + 1, s.dst.pos.toNat⟩) (i := 0)
    (fuel := (s.arg 0).toNat) (taint_of_calm h.calm) hlsb (s.arg 0).isLt h.apart hc (by omega) (Nat.sub_le _ _) hfeeds.tail.left
  rw [Nat.zero_add] at hfuel heq
  obtain ⟨fuel, rfl⟩ : ∃ k, fuel = k + 1 := ⟨fuel - 1, by omega⟩
  have hlast := hfeeds.tail.right.putStrided (bytes := golRunsBytes zero runs) (a := s.golOut 0 + 0 * (s.arg 1).toNat)
    (stride := (s.arg 1).toNat) (h.apart.from (by omega))
  have hgamma := runGamma_feeds (e := s.env)
    (io := ⟨putStrided s.buf (s.golOut 0 + 0 * (s.arg 1).toNat) (s.arg 1).toNat
    (golRunsBytes zero runs), s.src.pos.toNat + 1 + (golRunsCode zero ⟨0, 3⟩ runs).length, s.dst.pos.toNat⟩) (v := c) (by omega) hc32
    (by rw [show s.env.lsb = false from hlsb]; exact hlast)
  have hloop := heq.trans (golRuns_overrun hlen hover hgamma)
  exact h.raises_body (r := ⟨.formatError, wordOf ((golRunsBytes zero runs).length + c)⟩) hfirst hb hloop

/-- A block of one zero run, in either bit order. -/
theorem golDecode_zeroRun (hf : s.holdsBits s.src.pos.toNat (0 :: runCode s.lsb (s.arg 0).toNat)) :
    exec .golDecode s = .next ((({ s with
      gol := ⟨0, 3⟩
      buf := putStrided s.buf (s.golOut 0) (s.arg 1).toNat (List.replicate (s.arg 0).toNat 0) }.atBit
        (s.src.pos.toNat + (2 * (s.arg 0).toNat.log2 + 2))).setResult (s.arg 0)).finished) := by
  have hfeeds := feeds_of_holdsBits hf
  have hb := srcBit_feeds (e := s.env) (io := s.io) hfeeds
  have hgamma := runGamma_feeds (e := s.env) (io := ⟨s.buf, s.src.pos.toNat + 1, s.dst.pos.toNat⟩) h.count_pos (s.arg 0).isLt
    hfeeds.tail
  have hrun := golRun_zeroRun (taint_of_calm h.calm) (s.arg 1).toNat (s.arg 0).toNat (s.golOut 0)
    ⟨⟨0, 3⟩, ⟨s.buf, s.src.pos.toNat + 1 + (runCode s.lsb (s.arg 0).toNat).length, s.dst.pos.toNat⟩⟩
  have hloop := golRuns_step (fuel := (s.arg 0).toNat - 1) (base := s.golOut 0) (stride := (s.arg 1).toNat) (i := 0)
    (count := (s.arg 0).toNat) (zero := true) (l := ⟨⟨0, 3⟩, ⟨s.buf, s.src.pos.toNat + 1, s.dst.pos.toNat⟩⟩)
    h.count_pos (by omega) hgamma (by rw [Nat.zero_mul, Nat.add_zero]; exact hrun)
  rw [Nat.sub_add_cancel h.count_pos, Nat.zero_add, golRuns_end] at hloop
  have hpos : s.src.pos.toNat + 1 + (runCode s.lsb (s.arg 0).toNat).length
      = s.src.pos.toNat + (2 * (s.arg 0).toNat.log2 + 2) := by rw [runCode_length]; omega
  rw [← hpos]
  rw [h.completes rfl hb hloop rfl]

/-- A block of one coded value, its one bit within the window when the order is LSB-first (R318). -/
theorem golDecode_oneValue {v : Nat} (hv : v ≤ 255) (h1 : s.arg 0 = 1)
    (hw : s.lsb = false ∨ (s.src.pos.toNat + 2) % 8 + v < 32)
    (hf : s.holdsBits s.src.pos.toNat (1 :: 1 :: golombCode s.lsb 0 v)) :
    exec .golDecode s = .next ((({ s with
      gol := golombNext ⟨0, 3⟩ v
      buf := putStrided s.buf (s.golOut 0) (s.arg 1).toNat [(residualOf v).setWidth 8] }.atBit
        (s.src.pos.toNat + (v + 3))).setResult 1).finished) := by
  have hfeeds := feeds_of_holdsBits hf
  have hb := srcBit_feeds (e := s.env) (io := s.io) hfeeds
  have hgamma := runGamma_feeds (e := s.env) (io := ⟨s.buf, s.src.pos.toNat + 1, s.dst.pos.toNat⟩) (v := 1) (Nat.le_refl _)
    (by decide) (Feeds.left (xs := runCode s.lsb 1) hfeeds.tail)
  have hcode : Feeds s.env s.buf (s.src.pos.toNat + 2) (golombCode s.lsb 0 v) := hfeeds.tail.tail
  have hprefix : golPrefix s.env ⟨s.buf, s.src.pos.toNat + 2, s.dst.pos.toNat⟩
      = golUnary s.env 255 0 ⟨s.buf, s.src.pos.toNat + 2, s.dst.pos.toNat⟩ := by
    cases hl : s.lsb with
    | false => exact golPrefix_msb hl _
    | true =>
      have hone : Feeds s.env s.buf (s.src.pos.toNat + 2 + v) [1] := by
        have := hcode.right
        rwa [List.length_replicate, Nat.pow_zero, Nat.div_one] at this
      exact golPrefix_window (window32_ne_zero (n := v) hl (hw.resolve_left (by simp [hl])) hone.head.1 hone.head.2)
  have hvalue := golValue_feeds (g := ⟨0, 3⟩) hprefix (by decide) (by rw [golombLength_start]; simpa using hv)
    (by rw [golombLength_start]; exact hcode)
  have hrun : golRun s.env false (s.arg 1).toNat 1 (s.golOut 0) ⟨⟨0, 3⟩, ⟨s.buf, s.src.pos.toNat + 2, s.dst.pos.toNat⟩⟩ =
      .ok ⟨golombNext ⟨0, 3⟩ v, ⟨putStrided s.buf (s.golOut 0) (s.arg 1).toNat [(residualOf v).setWidth 8],
        s.src.pos.toNat + 2 + (golombCode s.env.lsb (golombLength ⟨0, 3⟩) v).length, s.dst.pos.toNat⟩⟩ := by
    rw [golRun, if_neg Bool.false_ne_true, hvalue, taint_of_calm h.calm]
    rfl
  have hloop := golRuns_step (fuel := 0) (base := s.golOut 0) (stride := (s.arg 1).toNat) (i := 0) (count := 1) (zero := false)
    (l := ⟨⟨0, 3⟩, ⟨s.buf, s.src.pos.toNat + 1, s.dst.pos.toNat⟩⟩) (Nat.le_refl _) (Nat.le_refl _) hgamma
    (by rw [Nat.zero_mul, Nat.add_zero]; exact hrun)
  have hpos : s.src.pos.toNat + 2 + (golombCode s.env.lsb (golombLength ⟨0, 3⟩) v).length = s.src.pos.toNat + (v + 3) := by
    rw [golombCode_length, golombLength_start, Nat.pow_zero, Nat.div_one]
    omega
  have hone : (s.arg 0).toNat = 1 := by rw [h1]; rfl
  rw [golRuns_end, hpos] at hloop
  rw [h.completes (zero := false) rfl hb (by rw [hone]; exact hloop) rfl, h1]

end

/-- Settles O37: the loop over known runs, with its block stored and the run that passes the count; then the blocks of one run. -/
theorem golDecodeOfRuns : Obligations.GolDecodeOfRuns := by
  refine ⟨fun s zero runs hcalm hlsb hs hd h0 h1 hend hc => ?runs, fun s hcalm hs hd h0 h1 hend => ?oneRun, fun s h0 => ?noCount⟩
  case runs =>
    have h : s.GolReady := ⟨hcalm, hs, hd, h0, h1, hend⟩
    exact ⟨fun hlen hf => ⟨_, golDecode_block h hlsb hc hlen hf, rfl, putStrided_outputs h.stride_pos hlen⟩,
      fun c hc32 hlen hover hf => golDecode_overrun h hlsb hc hc32 hlen hover hf⟩
  case oneRun =>
    have h : s.GolReady := ⟨hcalm, hs, hd, h0, h1, hend⟩
    refine ⟨fun hf => ⟨_, golDecode_zeroRun h hf, rfl, fun j hj => ?_, ?_⟩, fun v hv hone hw hf =>
      ⟨_, golDecode_oneValue h hv hone hw hf, rfl, ?_, fun a ha => ?_⟩⟩
    · have hget := (putStrided_outputs h.stride_pos (bytes := List.replicate (s.arg 0).toNat 0) (by simp)).1 j (by simpa using hj)
      exact hget.trans (List.getElem_replicate _)
    · exact (putStrided_outputs h.stride_pos (bytes := List.replicate (s.arg 0).toNat 0) (by simp)).2
    · have hget := (putStrided_outputs h.stride_pos (bytes := [(residualOf v).setWidth 8]) (by simp [hone])).1 0 (by simp)
      rwa [Nat.zero_mul, Nat.add_zero] at hget
    · refine (putStrided_outputs h.stride_pos (bytes := [(residualOf v).setWidth 8]) (by simp [hone])).2 a fun j hj => ?_
      obtain rfl : j = 0 := by simpa [hone] using hj
      simpa using ha
  case noCount =>
    have hc : s.checkGolDecode = .ok () := if_pos h0
    have hb : golDecodeBody s.golStart = .ok (s.setResult 0) := by
      rw [State.golStart, if_pos h0, golDecodeBody, if_pos h0]
    exact runCommand_complete hc hb

end Sys2Proof.Machine
end

section
/-! PROOFS. The frequency model (41_range_coder.md R216, R217, R223): what a full rescale leaves, the model after a reset, and the
binary search. -/

namespace Sys2Proof.Machine

/-! ## Halved frequencies -/

theorem or_one_eq (n : Nat) : n ||| 1 = 2 * (n / 2) + 1 := by
  have hdiv : (n ||| 1) / 2 = n / 2 := by rw [Nat.or_div_two]; simp
  have hmod : (n ||| 1) % 2 = 1 := by simp [Nat.or_mod_two_eq_one]
  omega

theorem halved_toNat (f : BitVec 16) : (halved f).toNat = f.toNat / 2 ||| 1 := by
  simp [halved, Nat.shiftRight_eq_div_pow]

theorem halved_le {f : BitVec 16} (h : 1 ≤ f.toNat) : (halved f).toNat ≤ f.toNat := by
  rw [halved_toNat, or_one_eq]
  omega

/-! ## The halving loop -/

/-- The sum of the first `n` values of `f`. -/
def sumBelow (f : Nat → Nat) (n : Nat) : Nat := ((List.range n).map f).sum

theorem sumBelow_zero (f : Nat → Nat) : sumBelow f 0 = 0 := rfl

theorem sumBelow_succ (f : Nat → Nat) (n : Nat) : sumBelow f (n + 1) = sumBelow f n + f n := List.sum_range_succ f n

theorem sumBelow_succ_left (f : Nat → Nat) (n : Nat) : sumBelow f (n + 1) = f 0 + sumBelow (fun i => f (i + 1)) n := by
  rw [sumBelow, List.range_succ_eq_map, List.map_cons, List.map_map, List.sum_cons]
  rfl

theorem sumBelow_congr {f g : Nat → Nat} {n : Nat} (h : ∀ i < n, f i = g i) : sumBelow f n = sumBelow g n :=
  congrArg List.sum (List.map_congr_left fun i hi => h i (List.mem_range.mp hi))

theorem sumBelow_le {f g : Nat → Nat} {n : Nat} (h : ∀ i < n, f i ≤ g i) : sumBelow f n ≤ sumBelow g n := by
  induction n with
  | zero => exact Nat.le_refl _
  | succ n ih =>
    rw [sumBelow_succ, sumBelow_succ]
    exact Nat.add_le_add (ih fun i hi => h i (by omega)) (h n (by omega))

/-- The frequency collected for symbol `i`. -/
def Rescan.freq (r : Rescan) (i : Nat) : Nat := (r.newf.get i).toNat

theorem halveFrom_newf (n : Nat) (r : Rescan) (i : Nat) :
    (halveFrom n r).newf.get i = if 1 ≤ i ∧ i ≤ n then halved (r.newf.get i) else r.newf.get i := by
  induction n generalizing r with
  | zero => rw [if_neg (by omega)]; rfl
  | succ n ih =>
    rw [halveFrom, ih]
    simp only [Store.get_set]
    by_cases hi : i = n + 1
    · subst hi
      rw [if_neg (by omega), if_pos rfl, if_pos (by omega)]
    · by_cases hr : 1 ≤ i ∧ i ≤ n
      · rw [if_pos hr, if_neg hi, if_pos (by omega)]
      · rw [if_neg hr, if_neg hi, if_neg (by omega)]

/-- Each cumulative frequency becomes the sum of the frequencies below it. -/
theorem halveFrom_cf {n : Nat} {r : Rescan} (hb : r.below.toNat = sumBelow r.freq (n + 1)) (i : Nat) :
    ((halveFrom n r).cf.get i).toNat = if 1 ≤ i ∧ i ≤ n then sumBelow r.freq i else (r.cf.get i).toNat := by
  induction n generalizing r with
  | zero => rw [if_neg (by omega)]; rfl
  | succ n ih =>
    have hsub : (r.below - r.newf.get (n + 1)).toNat = sumBelow r.freq (n + 1) := by
      rw [sumBelow_succ] at hb
      rw [BitVec.toNat_sub_of_le (BitVec.le_def.mpr (by rw [hb]; exact Nat.le_add_left _ _)), hb]
      exact Nat.add_sub_cancel ..
    have hfreq : ∀ k < n + 1, Rescan.freq ⟨r.below - r.newf.get (n + 1), r.missing - halved (r.newf.get (n + 1)),
        r.cf.set (n + 1) (r.below - r.newf.get (n + 1)), r.newf.set (n + 1) (halved (r.newf.get (n + 1)))⟩ k = r.freq k :=
      fun k hk => congrArg BitVec.toNat (Store.get_set_other _ _ (by omega))
    rw [halveFrom, ih (by rw [sumBelow_congr hfreq]; exact hsub)]
    by_cases hi : i = n + 1
    · subst hi
      rw [if_neg (by omega), if_pos (by omega)]
      simp only [Store.get_set_same]
      exact hsub
    · by_cases hr : 1 ≤ i ∧ i ≤ n
      · rw [if_pos hr, if_pos (by omega)]
        exact sumBelow_congr fun k hk => hfreq k (by omega)
      · rw [if_neg hr, if_neg (by omega), Store.get_set_other _ _ hi]

/-- What is missing to the total shrinks by every halved frequency but that of symbol 0. -/
theorem halveFrom_missing {n : Nat} {r : Rescan}
    (h : sumBelow (fun i => (halved (r.newf.get (i + 1))).toNat) n ≤ r.missing.toNat) :
    (halveFrom n r).missing.toNat = r.missing.toNat - sumBelow (fun i => (halved (r.newf.get (i + 1))).toNat) n := by
  induction n generalizing r with
  | zero => rfl
  | succ n ih =>
    rw [sumBelow_succ] at h ⊢
    have hsub : (r.missing - halved (r.newf.get (n + 1))).toNat = r.missing.toNat - (halved (r.newf.get (n + 1))).toNat :=
      BitVec.toNat_sub_of_le (BitVec.le_def.mpr (by omega))
    have hrest : sumBelow (fun i => (halved ((r.newf.set (n + 1) (halved (r.newf.get (n + 1)))).get (i + 1))).toNat) n
        = sumBelow (fun i => (halved (r.newf.get (i + 1))).toNat) n :=
      sumBelow_congr fun i hi => by rw [Store.get_set_other _ _ (by omega)]
    rw [halveFrom, ih (by simp only [hrest, hsub]; omega)]
    simp only [hrest, hsub]
    omega

/-! ## A full rescale (R216) -/

/-- The frequency a model has collected for symbol `i`. -/
def Qs.freq (q : Qs) (i : Nat) : Nat := (q.newf.get i).toNat

theorem collected_eq (q : Qs) : q.collected = sumBelow q.freq 257 := rfl

/-- A model whose collected frequencies are positive and add up to its total. -/
structure Qs.Whole (q : Qs) : Prop where
  counted : ∀ i ≤ 256, 1 ≤ q.freq i
  total : (q.cf.get 257).toNat = q.collected

theorem qsRebuild_newf (q : Qs) {i : Nat} (hi : i ≤ 256) : (qsRebuild q).newf.get i = halved (q.newf.get i) := by
  simp only [qsRebuild, Store.get_set, halveFrom_newf]
  by_cases h0 : i = 0
  · subst h0; simp
  · rw [if_neg h0, if_pos (by omega)]

/-- Every halved frequency of a rescaled model. -/
theorem qsRebuild_freq (q : Qs) {i : Nat} (hi : i ≤ 256) : (qsRebuild q).freq i = q.freq i / 2 ||| 1 := by
  rw [Qs.freq, qsRebuild_newf q hi, halved_toNat, Qs.freq]

namespace Qs.Whole

variable {q : Qs} (h : q.Whole)
include h

/-- The cumulative frequencies are the sums of the ones collected before. -/
theorem rebuild_cf (i : Nat) :
    ((qsRebuild q).cf.get i).toNat = if 1 ≤ i ∧ i ≤ 256 then sumBelow q.freq i else (q.cf.get i).toNat := by
  have htotal : (q.cf.get 257).toNat = sumBelow q.freq (256 + 1) := h.total.trans (collected_eq q)
  have hcf : (qsRebuild q).cf = (halveFrom 256 ⟨q.cf.get 257, q.cf.get 257, q.cf, q.newf⟩).cf := by simp only [qsRebuild]
  rw [hcf]
  exact halveFrom_cf htotal i

theorem rebuild_collected_le : (qsRebuild q).collected ≤ (q.cf.get 257).toNat := by
  rw [h.total, collected_eq, collected_eq]
  refine sumBelow_le fun i hi => ?_
  rw [Qs.freq, qsRebuild_newf q (by omega)]
  exact halved_le (h.counted i (by omega))

/-- What the rescale has left to hand out: the total less what it keeps. -/
theorem rebuild_missing : ((halveFrom 256 ⟨q.cf.get 257, q.cf.get 257, q.cf, q.newf⟩).missing - halved (q.newf.get 0)).toNat
    = (q.cf.get 257).toNat - (qsRebuild q).collected := by
  have hle := h.rebuild_collected_le
  have hsplit : (qsRebuild q).collected
      = sumBelow (fun i => (halved (q.newf.get (i + 1))).toNat) 256 + (halved (q.newf.get 0)).toNat := by
    rw [collected_eq, sumBelow_succ_left, Nat.add_comm, Qs.freq, qsRebuild_newf q (by omega)]
    have hrest : ∀ i < 256, (qsRebuild q).freq (i + 1) = (halved (q.newf.get (i + 1))).toNat := fun i hi => by
      rw [Qs.freq, qsRebuild_newf q (by omega)]
    rw [sumBelow_congr hrest]
  have hmissing := halveFrom_missing (n := 256) (r := ⟨q.cf.get 257, q.cf.get 257, q.cf, q.newf⟩) (by simp only; omega)
  rw [BitVec.toNat_sub_of_le (BitVec.le_def.mpr (by rw [hmissing]; simp only; omega)), hmissing]
  simp only
  omega

/-- The increments hand out exactly what is missing. -/
theorem rebuild_counts (hr : 0 < q.rescale.toNat) (hr' : q.rescale.toNat < 2 ^ 16) :
    (qsRebuild q).incr.toNat = ((q.cf.get 257).toNat - (qsRebuild q).collected) / q.rescale.toNat
    ∧ (qsRebuild q).nextleft.toNat = ((q.cf.get 257).toNat - (qsRebuild q).collected) % q.rescale.toNat
    ∧ (qsRebuild q).left.toNat = q.rescale.toNat - (qsRebuild q).nextleft.toNat := by
  have h0 : (halveFrom 256 ⟨q.cf.get 257, q.cf.get 257, q.cf, q.newf⟩).newf.get 0 = q.newf.get 0 := by
    rw [halveFrom_newf, if_neg (by omega)]
  have hmod := Nat.mod_lt ((q.cf.get 257).toNat - (qsRebuild q).collected) hr
  have hdiv := Nat.div_le_self ((q.cf.get 257).toNat - (qsRebuild q).collected) q.rescale.toNat
  have htotal := (q.cf.get 257).isLt
  have hincr : (qsRebuild q).incr
      = BitVec.ofNat 16 (((q.cf.get 257).toNat - (qsRebuild q).collected) / q.rescale.toNat) := by
    rw [← h.rebuild_missing, ← h0]; rfl
  have hnext : (qsRebuild q).nextleft
      = BitVec.ofNat 16 (((q.cf.get 257).toNat - (qsRebuild q).collected) % q.rescale.toNat) := by
    rw [← h.rebuild_missing, ← h0]; rfl
  have hleft : (qsRebuild q).left
      = BitVec.ofNat 16 (q.rescale.toNat - ((q.cf.get 257).toNat - (qsRebuild q).collected) % q.rescale.toNat) := by
    rw [← h.rebuild_missing, ← h0]; rfl
  rw [hincr, hnext, hleft, BitVec.toNat_ofNat, BitVec.toNat_ofNat, BitVec.toNat_ofNat]
  refine ⟨Nat.mod_eq_of_lt (by omega), Nat.mod_eq_of_lt (by omega), ?_⟩
  rw [Nat.mod_eq_of_lt (by omega), Nat.mod_eq_of_lt (by omega : _ % q.rescale.toNat < 2 ^ 16)]

end Qs.Whole

/-! ## A reset (R217) -/

/-- The equal frequencies of R217 for a total. -/
def equalFreq (total i : Nat) : Nat := total / 257 + if i < total % 257 then 1 else 0

theorem sumBelow_equalFreq (total n : Nat) : sumBelow (equalFreq total) n = n * (total / 257) + min n (total % 257) := by
  induction n with
  | zero => rw [sumBelow_zero, Nat.zero_mul, Nat.zero_min]
  | succ n ih =>
    rw [sumBelow_succ, ih, equalFreq, Nat.succ_mul]
    split <;> omega

/-- The model a reset rescales: equal frequencies and RESCALE 18. -/
def qsEqual (q : Qs) : Qs :=
  { q with
    rescale := 18
    nextleft := 0
    incr := 0
    left := 0
    newf := q.newf.setSpan 0 257 (fun i => BitVec.ofNat 16
      (if i < (q.cf.get 257).toNat % 257 then (q.cf.get 257).toNat / 257 + 1 else (q.cf.get 257).toNat / 257)) }

theorem qsRestart_eq_rebuild (q : Qs) : qsRestart q = qsRebuild (qsGrow (qsEqual q)) := by
  simp only [qsRestart, qsDoRescale]
  exact if_neg (by simp)

theorem qsGrow_newf (q : Qs) : (qsGrow q).newf = q.newf := by
  unfold qsGrow
  split <;> rfl

theorem qsEqual_freq (q : Qs) {i : Nat} (hi : i ≤ 256) :
    (qsGrow (qsEqual q)).freq i = equalFreq (q.cf.get 257).toNat i := by
  have htotal := (q.cf.get 257).isLt
  rw [Qs.freq, qsGrow_newf, qsEqual, Store.get_setSpan, if_pos (by omega), equalFreq, BitVec.toNat_ofNat]
  split <;> exact Nat.mod_eq_of_lt (by omega)

theorem qsEqual_cf (q : Qs) : (qsGrow (qsEqual q)).cf = q.cf := by
  obtain ⟨-, hcf, -⟩ := qsGrow_fields (qsEqual q)
  exact hcf

/-- With a total that gives every symbol a count, the equal frequencies add up to it. -/
theorem qsEqual_whole {q : Qs} (h : 257 ≤ (q.cf.get 257).toNat) : (qsGrow (qsEqual q)).Whole where
  counted i hi := by
    rw [qsEqual_freq q hi, equalFreq]
    omega
  total := by
    rw [collected_eq, sumBelow_congr fun i hi => qsEqual_freq q (Nat.le_of_lt_succ hi), sumBelow_equalFreq, qsEqual_cf]
    omega

/-- The growth of RESCALE at a reset (R216, R217). -/
theorem qsEqual_rescale (q : Qs) : (qsGrow (qsEqual q)).rescale.toNat
    = if 18 < q.target.toNat then min 36 q.target.toNat else 18 := by
  obtain ⟨-, -, -, -, -, -, hr⟩ := qsGrow_fields (qsEqual q)
  rw [hr]
  show (if 18 < q.target.toNat then BitVec.ofNat 32 (min 36 q.target.toNat) else (18 : Word)).toNat = _
  by_cases h : 18 < q.target.toNat
  · rw [if_pos h, if_pos h, BitVec.toNat_ofNat]
    exact Nat.mod_eq_of_lt (by omega)
  · rw [if_neg h, if_neg h]
    rfl

/-- The cumulative frequencies after a reset. -/
theorem qsRestart_cf {q : Qs} (h257 : 257 ≤ (q.cf.get 257).toNat) (h0 : q.cf.get 0 = 0) {i : Nat} (hi : i ≤ 257) :
    ((qsRestart q).cf.get i).toNat = i * ((q.cf.get 257).toNat / 257) + min i ((q.cf.get 257).toNat % 257) := by
  rw [qsRestart_eq_rebuild, (qsEqual_whole h257).rebuild_cf, qsEqual_cf]
  split
  · rw [sumBelow_congr fun k hk => qsEqual_freq q (by omega), sumBelow_equalFreq]
  · next hi' =>
    rcases (by omega : i = 0 ∨ i = 257) with rfl | rfl
    · rw [h0, Nat.zero_mul, Nat.zero_min]; rfl
    · omega

/-- A reset makes a fresh model of a good one. -/
theorem qsRestart_fresh {q : Qs} (hv : q.valid = true) (hg : q.Good) :
    (qsRestart q).Fresh q.lgTotf.toNat q.target.toNat := by
  obtain ⟨hvalid, hlg, hshift, htarget, -, -⟩ := qsRestart_fields q
  have htotal : (q.cf.get 257).toNat = 2 ^ q.lgTotf.toNat := hg.last
  have h512 : 2 ^ 9 ≤ (q.cf.get 257).toNat := htotal ▸ Nat.pow_le_pow_right (by decide) hg.total_range
  have hwhole := qsEqual_whole (q := q) (by omega)
  have hrescale := qsEqual_rescale q
  have hcounts := hwhole.rebuild_counts (by rw [hrescale]; split <;> omega) (by rw [hrescale]; split <;> omega)
  rw [← qsRestart_eq_rebuild, qsEqual_cf, htotal] at hcounts
  obtain ⟨hincr, hnext, hleft⟩ := hcounts
  have hsame : (qsRestart q).rescale = (qsGrow (qsEqual q)).rescale := by
    obtain ⟨-, -, -, -, hr, -⟩ := qsRebuild_fields (qsGrow (qsEqual q))
    rw [qsRestart_eq_rebuild, hr]
  rw [← hsame] at hrescale hincr hnext hleft
  refine ⟨hvalid.trans hv, by rw [hlg], by rw [hshift, hg.shift_eq], by rw [htarget], fun i hi => ?_, fun i hi => ?_, hrescale,
    hincr, hnext, hleft⟩
  · rw [← htotal]
    exact qsRestart_cf (by omega) hg.first hi
  · have := qsRebuild_freq (qsGrow (qsEqual q)) hi
    rw [← qsRestart_eq_rebuild, qsEqual_freq q hi, equalFreq, htotal] at this
    exact this

/-! ## The binary search (R223) -/

/-- Between bounds whose cumulative frequencies enclose `lt`, the search ends at an interval that holds it. -/
theorem searchFrom_spec {cf : Store 16} {lt fuel lo hi : Nat} (hlo : (cf.get lo).toNat ≤ lt) (hhi : lt < (cf.get hi).toNat)
    (hlt : lo < hi) (hfuel : hi ≤ lo + 2 ^ fuel) : lo ≤ searchFrom cf lt fuel lo hi ∧ searchFrom cf lt fuel lo hi < hi
      ∧ (cf.get (searchFrom cf lt fuel lo hi)).toNat ≤ lt ∧ lt < (cf.get (searchFrom cf lt fuel lo hi + 1)).toNat := by
  induction fuel generalizing lo hi with
  | zero =>
    obtain rfl : hi = lo + 1 := by omega
    exact ⟨Nat.le_refl _, Nat.lt_succ_self _, hlo, hhi⟩
  | succ fuel ih =>
    rw [Nat.pow_succ] at hfuel
    unfold searchFrom
    split
    · dsimp only
      split
      · next hmid =>
        obtain ⟨h1, h2, h3⟩ := ih hlo hmid (by omega) (by omega)
        exact ⟨h1, by omega, h3⟩
      · next hmid =>
        obtain ⟨h1, h2, h3⟩ := ih (Nat.le_of_not_lt hmid) hhi (by omega) (by omega)
        exact ⟨by omega, h2, h3⟩
    · obtain rfl : hi = lo + 1 := by omega
      exact ⟨Nat.le_refl _, Nat.lt_succ_self _, hlo, hhi⟩

/-- The search ends no further than its bounds. -/
theorem searchFrom_le (cf : Store 16) (lt fuel lo hi : Nat) : searchFrom cf lt fuel lo hi ≤ max lo hi := by
  induction fuel generalizing lo hi with
  | zero => exact Nat.le_max_left _ _
  | succ fuel ih =>
    unfold searchFrom
    split
    · dsimp only
      split
      · exact (ih _ _).trans (by omega)
      · exact (ih _ _).trans (by omega)
    · exact Nat.le_max_left _ _

/-- Every symbol the search answers fits a register. -/
theorem qsSymbol_lt (q : Qs) (lt : Nat) : qsSymbol q lt < 2 ^ 32 := by
  have h := searchFrom_le q.cf lt 17 (q.search.get (lt >>> q.shift.toNat)).toNat
    ((q.search.get (lt >>> q.shift.toNat + 1)).toNat + 1)
  have h1 := (q.search.get (lt >>> q.shift.toNat)).isLt
  have h2 := (q.search.get (lt >>> q.shift.toNat + 1)).isLt
  unfold qsSymbol
  dsimp only
  omega

/-! ## The terminal symbol after a reset -/

theorem bucketAt_le {lo hi : Nat → Nat} {j n m : Nat} {v : BitVec 16} (hn : n ≤ m + 1) (hv : v.toNat ≤ m) :
    (bucketAt lo hi j n v).toNat ≤ m := by
  induction n generalizing v with
  | zero => exact hv
  | succ i ih =>
    rw [bucketAt]
    refine ih (by omega) ?_
    split
    · exact (Nat.mod_le _ _).trans (by omega)
    · exact hv

/-- The quotient of the number just below a multiple. -/
theorem pred_mul_div (a : Nat) {b : Nat} (hb : 0 < b) : (a * b - 1) / b = a - 1 := by
  cases a with
  | zero => simp
  | succ a =>
    rw [Nat.succ_mul, Nat.add_sub_assoc hb, Nat.mul_comm, Nat.mul_add_div hb, Nat.div_eq_of_lt (by omega)]
    rfl

section

variable {q : Qs} (hg : q.Good)
include hg

/-- The total is 128 bucket widths (R222). -/
theorem Qs.Good.total_eq : (q.cf.get 257).toNat = 128 * 2 ^ q.shift.toNat := by
  have h9 := hg.total_range
  rw [hg.last, show (128 : Nat) = 2 ^ 7 from rfl, ← Nat.pow_add, hg.shift_eq]
  congr 1
  omega

/-- After a reset every interval but the last ends below the total, and the last ends there. -/
theorem qsRestart_cf_bounds {i : Nat} (h1 : 1 ≤ i) (h256 : i ≤ 256) : 1 ≤ ((qsRestart q).cf.get i).toNat
    ∧ ((qsRestart q).cf.get i).toNat < (q.cf.get 257).toNat := by
  have h512 : 2 ^ 9 ≤ (q.cf.get 257).toNat := hg.last ▸ Nat.pow_le_pow_right (by decide) hg.total_range
  rw [qsRestart_cf (by omega) hg.first (by omega)]
  have hle : i * ((q.cf.get 257).toNat / 257) ≤ 256 * ((q.cf.get 257).toNat / 257) := Nat.mul_le_mul_right _ h256
  have hge : 1 * ((q.cf.get 257).toNat / 257) ≤ i * ((q.cf.get 257).toNat / 257) := Nat.mul_le_mul_right _ h1
  omega

theorem qsRestart_cf_last : ((qsRestart q).cf.get 257).toNat = (q.cf.get 257).toNat := by
  have h512 : 2 ^ 9 ≤ (q.cf.get 257).toNat := hg.last ▸ Nat.pow_le_pow_right (by decide) hg.total_range
  rw [qsRestart_cf (by omega) hg.first (Nat.le_refl _)]
  omega

/-- The bucket of the last target after a reset holds a symbol. -/
theorem qsRestart_bucket_127 : ((qsRestart q).search.get 127).toNat ≤ 256 := by
  obtain ⟨-, -, -, -, -, hs⟩ := qsRestart_fields q
  have hw : 0 < 2 ^ q.shift.toNat := Nat.two_pow_pos _
  have htotal := hg.total_eq
  obtain ⟨hpos, hlt⟩ := qsRestart_cf_bounds hg (i := 256) (by decide) (by decide)
  have hlast := qsRestart_cf_last hg
  have hlow : ((qsRestart q).cf.get 256).toNat >>> q.shift.toNat ≤ 127 := by
    rw [Nat.shiftRight_eq_div_pow]
    exact Nat.le_of_lt_succ (Nat.div_lt_of_lt_mul (by rw [Nat.mul_comm]; omega))
  have hhigh : ((qsRestart q).cf.get (256 + 1) - 1).toNat >>> q.shift.toNat = 127 := by
    rw [BitVec.toNat_sub_of_le (BitVec.le_def.mpr (by rw [hlast]; show 1 ≤ _; omega)), hlast, Nat.shiftRight_eq_div_pow, htotal]
    exact pred_mul_div 128 hw
  rw [hs, bucketsFrom_get, bucketAt, if_pos ⟨hlow, by omega⟩]
  exact bucketAt_le (by decide) (by decide)

/-- The end of the buckets stays at the terminal symbol. -/
theorem qsRestart_bucket_128 : ((qsRestart q).search.get 128).toNat = 256 := by
  obtain ⟨-, -, -, -, -, hs⟩ := qsRestart_fields q
  have htotal := hg.total_eq
  rw [hs, bucketsFrom_get, bucketAt_out, hg.bucket_end]
  intro i hi
  have hbounds : 1 ≤ ((qsRestart q).cf.get (i + 1)).toNat ∧ ((qsRestart q).cf.get (i + 1)).toNat ≤ (q.cf.get 257).toNat := by
    rcases Nat.lt_or_eq_of_le (Nat.le_of_lt_succ hi) with hi | rfl
    · obtain ⟨h1, h2⟩ := qsRestart_cf_bounds hg (i := i + 1) (by omega) (by omega)
      exact ⟨h1, by omega⟩
    · have hlast := qsRestart_cf_last hg
      exact ⟨by rw [hlast, htotal]; have := Nat.two_pow_pos q.shift.toNat; omega, by rw [hlast]⟩
  rw [BitVec.toNat_sub_of_le (BitVec.le_def.mpr (by show 1 ≤ _; omega)), Nat.shiftRight_eq_div_pow]
  exact Nat.div_lt_of_lt_mul (by rw [Nat.mul_comm]; show _ - 1 < _; omega)

/-- The highest target decodes the terminal symbol after a reset. -/
theorem qsSymbol_top : qsSymbol (qsRestart q) (2 ^ q.lgTotf.toNat - 1) = 256 := by
  obtain ⟨-, -, hshift, -, -, -⟩ := qsRestart_fields q
  have hw : 0 < 2 ^ q.shift.toNat := Nat.two_pow_pos _
  have hlast := qsRestart_cf_last hg
  have htotal := hg.total_eq
  have h127 := qsRestart_bucket_127 hg
  have hbucket : (2 ^ q.lgTotf.toNat - 1) >>> (qsRestart q).shift.toNat = 127 := by
    rw [hshift, ← hg.last, htotal, Nat.shiftRight_eq_div_pow]
    exact pred_mul_div 128 hw
  have hlow : ∀ i ≤ 256, ((qsRestart q).cf.get i).toNat ≤ 2 ^ q.lgTotf.toNat - 1 := fun i hi => by
    rw [← hg.last]
    rcases Nat.eq_zero_or_pos i with rfl | hpos
    · have h512 : 2 ^ 9 ≤ (q.cf.get 257).toNat := hg.last ▸ Nat.pow_le_pow_right (by decide) hg.total_range
      rw [qsRestart_cf (by omega) hg.first (by decide)]
      omega
    · have := (qsRestart_cf_bounds hg hpos hi).2
      omega
  unfold qsSymbol
  dsimp only
  rw [hbucket, qsRestart_bucket_128 hg]
  have hfound := searchFrom_spec (fuel := 17) (hlow _ h127) (show _ < ((qsRestart q).cf.get (256 + 1)).toNat by
    rw [hlast, hg.last]; exact Nat.sub_lt (Nat.two_pow_pos _) Nat.one_pos) (by omega) (by omega)
  generalize searchFrom _ _ _ _ _ = sym at hfound ⊢
  obtain ⟨-, hlt, -, hnext⟩ := hfound
  by_contra hne
  have := hlow (sym + 1) (by omega)
  omega

end

end Sys2Proof.Machine
end

section
/-! PROOFS. RC_DECODE with no room, and a stream of ones (41_range_coder.md R203, R204, R207, R230; 20_memory.md R110). -/

namespace Sys2Proof.Machine

/-! ## What RC_DECODE does once its checks pass -/

/-- A state in which RC_DECODE passes its checks and its output is determined. -/
structure State.RcReady (s : State) : Prop where
  calm : s.calm
  valid : s.qs.valid = true
  src : s.srcInBounds = true
  dst : s.dstInBounds = true

namespace State.RcReady

variable {s : State} (h : s.RcReady)
include h

theorem checks : (do s.requireReady s.qs.valid; s.checkSrc; s.checkDst : Run Unit) = .ok () := by
  rw [requireReady_ok h.valid, checkSrc_ok h.src, checkDst_ok h.dst]
  rfl

/-- With no room it answers 0 and reads nothing (20_memory.md R110). -/
theorem noRoom (hr : s.dst.pos = s.dst.len) : exec .rcDecode s = .next (s.setResult 0).finished := by
  refine runCommand_complete h.checks ?_
  rw [markOverlap_of_calm h.calm, rcDecodeBody, if_pos hr]

/-- With room it completes with what its loop leaves. -/
theorem completes (hr : s.dst.pos ≠ s.dst.len) {c : Byte} {rc : Rc} {io : Io} {l : RcLoop}
    (hstart : rcStartup s.rcCfg s.env s.io = .ok (c, rc, io))
    (hloop : rcDecodeFrom s.rcCfg s.env (s.dst.len.toNat - s.dst.pos.toNat + 1) ⟨rc, qsRestart s.qs, io⟩ = .ok l) :
    exec .rcDecode s = .next (((({ s with rc := l.rc, qs := l.qs }.withIo l.io).setResult
      (wordOf (l.io.out - s.dst.pos.toNat))).setResult1 (c.setWidth 32)).finished) := by
  refine runCommand_complete h.checks ?_
  rw [markOverlap_of_calm h.calm, rcDecodeBody, if_neg hr, hstart]
  simp only [Run.ok_bind, hloop]
  rfl

/-- With room it raises what its loop raises. -/
theorem raises_loop (hr : s.dst.pos ≠ s.dst.len) {c : Byte} {rc : Rc} {io : Io} {r : Raise}
    (hstart : rcStartup s.rcCfg s.env s.io = .ok (c, rc, io))
    (hloop : rcDecodeFrom s.rcCfg s.env (s.dst.len.toNat - s.dst.pos.toNat + 1) ⟨rc, qsRestart s.qs, io⟩ = .error r) :
    raises .rcDecode s 2 4 r.err.code r.info := by
  refine raises_of_body (by decide) (by decide) rfl h.checks ?_
  rw [markOverlap_of_calm h.calm, rcDecodeBody, if_neg hr, hstart]
  simp only [Run.ok_bind, hloop, Run.error_bind]

end State.RcReady

/-! ## The decoder on a stream of ones -/

/-- The decoder after the first two bytes and `k` more, all ones but the first: `low` is one less than `range`. -/
def onesRc (x k : Nat) : Rc := ⟨BitVec.ofNat 32 (2 ^ (x + 8 * k) - 1), BitVec.ofNat 32 (2 ^ (x + 8 * k)), 0, 0xFF, .decoding⟩

theorem onesRc_start : ∀ x : Fin 7, (⟨((0xFF : Byte) >>> (8 - (x.val + 1))).setWidth 32, BitVec.ofNat 32 (2 ^ (x.val + 1)), 0,
    0xFF, .decoding⟩ : Rc) = onesRc (x.val + 1) 0 := by decide

theorem rcShift_onesRc (bottom : Nat) (normLe : Bool) : ∀ x : Fin 7, ∀ k : Fin 3,
    rcShift ⟨bottom, normLe, x.val + 1⟩ (onesRc (x.val + 1) k.val) 0xFF = onesRc (x.val + 1) (k.val + 1) := by
  have h : ∀ x : Fin 7, ∀ k : Fin 3, rcShift ⟨0, false, x.val + 1⟩ (onesRc (x.val + 1) k.val) 0xFF
      = onesRc (x.val + 1) (k.val + 1) := by decide
  exact h

theorem onesRc_range {x k : Nat} (h : x + 8 * k < 32) : (onesRc x k).range.toNat = 2 ^ (x + 8 * k) := by
  rw [onesRc, BitVec.toNat_ofNat]
  exact Nat.mod_eq_of_lt (Nat.pow_lt_pow_right (by decide) h)

theorem onesRc_low {x k : Nat} (h : x + 8 * k < 32) : (onesRc x k).low.toNat = 2 ^ (x + 8 * k) - 1 := by
  have hlt : 2 ^ (x + 8 * k) < 2 ^ 32 := Nat.pow_lt_pow_right (by decide) h
  rw [onesRc, BitVec.toNat_ofNat]
  exact Nat.mod_eq_of_lt (by omega)

/-- Every legal RC_BOTTOM is at least 2^16. -/
theorem rcBottom_ge (p : Config.Params) : 2 ^ 16 ≤ p.rcBottom := by
  unfold Config.Params.rcBottom
  split <;> exact Nat.pow_le_pow_right (by decide) (Nat.le_add_right ..)

/-- Every legal RC_BOTTOM is at most 2^24. -/
theorem rcBottom_le (p : Config.Params) : p.rcBottom ≤ 2 ^ 24 := by
  have := p.rcSel.isLt
  unfold Config.Params.rcBottom
  split <;> exact Nat.pow_le_pow_right (by decide) (by omega)

/-- A range of more than 24 bits needs no byte (R202). -/
theorem rcNeed_false (s : State) {rc : Rc} (h : 2 ^ 24 < rc.range.toNat) : rcNeed s.rcCfg rc = false := by
  have := rcBottom_le s.cfg
  unfold rcNeed State.rcCfg
  split <;> simp only [decide_eq_false_iff_not] <;> omega

/-- A decoder that needs no byte has a range of at least 16 bits (R202). -/
theorem range_of_not_rcNeed (s : State) {rc : Rc} (h : rcNeed s.rcCfg rc = false) : 2 ^ 16 ≤ rc.range.toNat := by
  have := rcBottom_ge s.cfg
  unfold rcNeed State.rcCfg at h
  split at h <;> simp only [decide_eq_false_iff_not] at h <;> omega

/-- The source holds bytes of ones at offsets `q` to `q + 2`. -/
def OnesFrom (e : Env) (buf : Store 8) (q : Nat) : Prop :=
  q + 3 ≤ e.srcLen ∧ ∀ j < 3, buf.get (e.srcBase + (q + j)) = 0xFF

/-- A byte read inside the source. -/
theorem srcByte_at {e : Env} {io : Io} {q : Nat} (hp : alignUp io.pos = 8 * q) (hq : q < e.srcLen) :
    srcByte e io = .ok (io.buf.get (e.srcBase + q), { io with pos := 8 * (q + 1) }) := by
  rw [srcByte_of_lt (by rw [hp]; omega), hp, Nat.mul_div_cancel_left _ (by decide : 0 < 8)]
  rfl

/-- On a stream of ones `RcNormalize()` reads at most three bytes and leaves a decoder of the same form. -/
theorem rcNormalizeFrom_ones (s : State) {io : Io} {q n k fuel : Nat} (hones : OnesFrom s.env io.buf q) (hk : k ≤ 3)
    (hp : io.pos = 8 * (q + k)) (hf : 3 < fuel + k) : ∃ m, ∃ k' ≤ 3,
    rcNormalizeFrom s.rcCfg s.env fuel n (onesRc s.cfg.rcExtraBits k) io
      = .ok (m, onesRc s.cfg.rcExtraBits k', { io with pos := 8 * (q + k') })
    ∧ rcNeed s.rcCfg (onesRc s.cfg.rcExtraBits k') = false := by
  induction fuel generalizing n k io with
  | zero => omega
  | succ fuel ih =>
    unfold rcNormalizeFrom
    split
    · next hneed =>
      have hk3 : k < 3 := by
        refine Nat.lt_of_le_of_ne hk fun h3 => ?_
        subst h3
        have hx := s.cfg.rcExtra.isLt
        rw [rcNeed_false s (by
          rw [onesRc_range (by unfold Config.Params.rcExtraBits; omega)]
          exact Nat.pow_lt_pow_right (by decide) (by unfold Config.Params.rcExtraBits; omega))] at hneed
        exact absurd hneed (by decide)
      have hshift : rcShift s.rcCfg (onesRc s.cfg.rcExtraBits k) 0xFF = onesRc s.cfg.rcExtraBits (k + 1) :=
        rcShift_onesRc _ _ s.cfg.rcExtra ⟨k, hk3⟩
      rw [srcByte_at (q := q + k) ((alignUp_of_mod (by omega)).trans hp) (by have := hones.1; omega), hones.2 k hk3]
      dsimp only
      rw [hshift]
      exact ih hones hk3 rfl (by omega)
    · next hneed => exact ⟨n, k, hk, by rw [← hp], by simpa using hneed⟩

/-- The division of R207 on a stream of ones: every bit of the target is one. -/
theorem ones_target {m lg : Nat} (h : lg ≤ m) : (2 ^ m - 1) / 2 ^ (m - lg) = 2 ^ lg - 1 := by
  have hsplit : 2 ^ m = 2 ^ lg * 2 ^ (m - lg) := by rw [← Nat.pow_add]; congr 1; omega
  rw [hsplit]
  exact pred_mul_div _ (Nat.two_pow_pos _)

/-- RC_CULSHIFT on a stream of ones answers the highest target. -/
theorem rcCulshift_ones (s : State) {io : Io} {q lg : Nat} (hones : OnesFrom s.env io.buf q) (hp : io.pos = 8 * q) (hlg : lg < 16) :
    ∃ k ≤ 3, ∃ rc, rcCulshift s.rcCfg s.env lg (onesRc s.cfg.rcExtraBits 0) io
      = .ok (2 ^ lg - 1, rc, { io with pos := 8 * (q + k) }) := by
  obtain ⟨m, k, hk, hnorm, hneed⟩ := rcNormalizeFrom_ones s (n := 0) (k := 0) (fuel := s.env.srcLen + 1) hones (by decide) hp
    (by have := hones.1; omega)
  have hx := s.cfg.rcExtra.isLt
  have hbits : s.cfg.rcExtraBits + 8 * k < 32 := by unfold Config.Params.rcExtraBits; omega
  have hrange := range_of_not_rcNeed s hneed
  rw [onesRc_range hbits] at hrange
  have h16 : 16 ≤ s.cfg.rcExtraBits + 8 * k := (Nat.pow_le_pow_iff_right (by decide)).mp hrange
  have hhelp : ((onesRc s.cfg.rcExtraBits k).range >>> lg).toNat = 2 ^ (s.cfg.rcExtraBits + 8 * k - lg) := by
    rw [BitVec.toNat_ushiftRight, onesRc_range hbits, Nat.shiftRight_eq_div_pow, Nat.pow_div (by omega) (by decide)]
  have htarget : (onesRc s.cfg.rcExtraBits k).low.toNat / ((onesRc s.cfg.rcExtraBits k).range >>> lg).toNat = 2 ^ lg - 1 := by
    rw [onesRc_low hbits, hhelp, ones_target (by omega)]
  refine ⟨k, hk, { onesRc s.cfg.rcExtraBits k with help := (onesRc s.cfg.rcExtraBits k).range >>> lg }, ?_⟩
  rw [rcCulshift, rcNormalize, hnorm]
  simp only [Run.ok_bind, htarget, ite_self, pure, Except.pure]

/-- RC_START before a stream of ones. -/
theorem rcStartup_ones (s : State) {q : Nat} {c : Byte} (hp : alignUp s.io.pos = 8 * q) (hlen : q + 1 < s.env.srcLen)
    (hc : s.buf.get (s.env.srcBase + q) = c) (hb : s.buf.get (s.env.srcBase + (q + 1)) = 0xFF) :
    rcStartup s.rcCfg s.env s.io = .ok (c, onesRc s.cfg.rcExtraBits 0, { s.io with pos := 8 * (q + 2) }) := by
  have h1 := srcByte_at (e := s.env) (io := s.io) hp (by omega)
  have h2 := srcByte_at (e := s.env) (io := { s.io with pos := 8 * (q + 1) }) (q := q + 1) (alignUp_of_mod (by simp)) hlen
  have hstart : (⟨((0xFF : Byte) >>> (8 - s.rcCfg.x)).setWidth 32, BitVec.ofNat 32 (2 ^ s.rcCfg.x), 0, 0xFF, .decoding⟩ : Rc)
      = onesRc s.cfg.rcExtraBits 0 := onesRc_start s.cfg.rcExtra
  have hc' : s.io.buf.get (s.env.srcBase + q) = c := hc
  have hb' : s.io.buf.get (s.env.srcBase + (q + 1)) = 0xFF := hb
  rw [hc'] at h1
  rw [hb'] at h2
  rw [rcStartup, h1]
  simp only [Run.ok_bind, h2, hstart]
  rfl

/-- The loop of RC_DECODE ends at once when the first symbol is the terminal one (R230). -/
theorem rcDecodeFrom_terminal {g : RcCfg} {e : Env} {fuel t : Nat} {l : RcLoop} {rc : Rc} {io : Io}
    (hc : rcCulshift g e l.qs.lgTotf.toNat l.rc l.io = .ok (t, rc, io)) (hsym : qsSymbol l.qs t = 256) :
    rcDecodeFrom g e (fuel + 1) l = .ok { l with
      rc := { rcNarrow rc (qsFreq l.qs 256).toNat (l.qs.cf.get 256).toNat (2 ^ l.qs.lgTotf.toNat) with st := .done }
      io := io } := by
  rw [rcDecodeFrom, hc]
  dsimp only
  rw [hsym, if_pos rfl]

/-- Only the source cursor written back. -/
theorem withIo_pos (s : State) (p : Nat) : s.withIo { s.io with pos := p } = s.atBit p := by
  simp [State.withIo, State.atBit, State.io, wordOf]

/-- RC_DECODE of a stream of ones: the terminal symbol at once. -/
theorem rcDecode_ones {s : State} (h : s.RcReady) (hg : s.qs.Good) (hr : s.dst.pos ≠ s.dst.len) {c : Byte}
    (hbytes : s.holdsBytes s.nextByte [c, 0xFF, 0xFF, 0xFF, 0xFF]) : ∃ k ≤ 3, ∃ t, exec .rcDecode s = .next t
      ∧ t = ((({ s with rc := t.rc, qs := t.qs }.atBit (8 * (s.nextByte + 2 + k))).setResult 0).setResult1
        (c.setWidth 32)).finished
      ∧ t.rc.st = .done ∧ t.qs.Fresh s.qs.lgTotf.toNat s.qs.target.toNat := by
  obtain ⟨hlen, hbyte⟩ := hbytes
  have hlen : s.nextByte + 5 ≤ s.env.srcLen := hlen
  have hp : alignUp s.io.pos = 8 * s.nextByte := Nat.mul_comm ..
  have hb : ∀ i, (hi : i < 5) → s.buf.get (s.env.srcBase + (s.nextByte + i)) = [c, 0xFF, 0xFF, 0xFF, 0xFF][i] :=
    fun i hi => (congrArg s.buf.get (Nat.add_assoc ..).symm).trans (hbyte i hi)
  have hones : OnesFrom s.env s.io.buf (s.nextByte + 2) := ⟨by omega, fun j hj => by
    rw [Nat.add_assoc s.nextByte]
    refine (hb (2 + j) (by omega)).trans ?_
    rcases (by omega : j = 0 ∨ j = 1 ∨ j = 2) with rfl | rfl | rfl <;> rfl⟩
  obtain ⟨-, hlg, -⟩ := qsRestart_fields s.qs
  obtain ⟨k, hk, rc, hcul⟩ := rcCulshift_ones s (io := { s.io with pos := 8 * (s.nextByte + 2) }) (lg := s.qs.lgTotf.toNat)
    hones rfl s.qs.lgTotf.isLt
  have hend := h.completes hr (rcStartup_ones s hp (by omega) (hb 0 (by decide)) (hb 1 (by decide)))
    (rcDecodeFrom_terminal (by rw [hlg]; exact hcul) (qsSymbol_top hg))
  refine ⟨k, hk, _, hend, ?_, rfl, qsRestart_fresh h.valid hg⟩
  dsimp only
  generalize hrc : ({ rcNarrow rc _ _ _ with st := .done } : Rc) = rc'
  have hio := withIo_pos { s with rc := rc', qs := qsRestart s.qs } (8 * (s.nextByte + 2 + k))
  have hout : wordOf (s.io.out - s.dst.pos.toNat) = 0 := by rw [show s.io.out = s.dst.pos.toNat from rfl, Nat.sub_self]; rfl
  rw [hout]
  exact congrArg (fun u : State => ((u.setResult 0).setResult1 (c.setWidth 32)).finished) hio

end Sys2Proof.Machine
end

section
/-! PROOFS. A command that ends without an error, and the range decoder's reads made of another buffer (41_range_coder.md R203,
R207). -/

namespace Sys2Proof.Machine

/-! ## Commands that end without an error -/

/-- A command never takes ERR back (R512). -/
theorem err_of_run {s : State} {i : Instr} (h : (s.run i).err = false) : s.err = false := by
  obtain ⟨u, hu, he | ⟨r, -, he⟩⟩ := exec_ends i s
  · rw [State.run_of_exec he] at h
    exact hu.err ▸ h
  · rw [State.run_of_exec he] at h
    cases h

/-- A command that ends without an error passed its checks and completed. -/
theorem run_completes {s after : State} {i : Instr} {id : CmdId} {checks : Run Unit} {body : Run State}
    (hi : exec i s = runCommand s id checks body after) (h : (s.run i).err = false) :
    ∃ u, checks = .ok () ∧ body = .ok u ∧ s.run i = u.complete := by
  obtain ⟨t, ht⟩ := runCommand_next s id checks body after
  have hrun := State.run_of_exec (hi.trans ht)
  rcases runCommand_cases ht with ⟨r, -, rfl⟩ | ⟨u, hc, hb, rfl⟩ | ⟨r, -, -, rfl⟩
  · rw [hrun] at h
    cases h
  · exact ⟨u, hc, hb, hrun⟩
  · rw [hrun] at h
    cases h

/-- A command whose answer is set completes with it. -/
theorem run_answers {s u : State} {i : Instr} {id : CmdId} {checks : Run Unit}
    (hi : exec i s = runCommand s id checks (.ok u) s) (h : (s.run i).err = false) : s.run i = u.complete := by
  obtain ⟨_, -, ⟨⟩, hu⟩ := run_completes hi h
  exact hu

theorem State.arg_withArgs (s : State) (a b c : Word) :
    (s.withArgs a b c).arg 0 = a ∧ (s.withArgs a b c).arg 1 = b ∧ (s.withArgs a b c).arg 2 = c := by
  simp [State.withArgs, State.arg]

theorem setResult_of_untainted {s : State} (h : s.tainted = false) (v : Word) : s.setResult v = { s with result := v } := by
  rw [State.setResult, h]
  rfl

theorem setResult1_of_untainted {s : State} (h : s.tainted = false) (v : Word) : s.setResult1 v = { s with result1 := v } := by
  rw [State.setResult1, h]
  rfl

section

variable {x : State} (ht : x.tainted = false)
include ht

theorem run_rcStart (h : (x.run .rcStart).err = false) : ∃ c rc io, rcStartup x.rcCfg x.env x.io = .ok (c, rc, io)
    ∧ x.run .rcStart = ({ x with rc := rc, result := c.setWidth 32 }.withPos io).complete := by
  obtain ⟨u, -, hb, hu⟩ := run_completes rfl h
  obtain ⟨⟨c, rc, io⟩, hr, ⟨⟩⟩ := Run.bind_ok.mp hb
  rw [setResult_of_untainted (by exact ht)] at hu
  exact ⟨c, rc, io, hr, hu⟩

theorem run_rcCulshift {sh : BitVec 5} (h : (x.run (.rcCulshift sh)).err = false) :
    ∃ t rc io, rcCulshift x.rcCfg x.env sh.toNat x.rc x.io = .ok (t, rc, io)
    ∧ x.run (.rcCulshift sh) = ({ x with rc := rc, result := wordOf t }.withPos io).complete := by
  obtain ⟨u, -, hb, hu⟩ := run_completes rfl h
  obtain ⟨⟨t, rc, io⟩, hr, ⟨⟩⟩ := Run.bind_ok.mp hb
  rw [setResult_of_untainted (by exact ht)] at hu
  exact ⟨t, rc, io, hr, hu⟩

omit ht in
theorem run_rcUpdate {sy lt tot : Word} (h : ((x.withArgs sy lt tot).run .rcUpdate).err = false) :
    (x.withArgs sy lt tot).run .rcUpdate
      = { x.withArgs sy lt tot with rc := rcNarrow x.rc sy.toNat lt.toNat tot.toNat }.complete := by
  obtain ⟨h0, h1, h2⟩ := x.arg_withArgs sy lt tot
  have hrun := run_answers (i := .rcUpdate) (by exact rfl) h
  rw [h0, h1, h2] at hrun
  exact hrun

omit ht in
theorem run_qsReset (h : (x.run .qsReset).err = false) : x.run .qsReset = { x with qs := qsRestart x.qs }.complete :=
  run_answers (i := .qsReset) (by exact rfl) h

theorem run_qsGetsym {v : Word} (h : ((x.withArgs v 0 0).run .qsGetsym).err = false) :
    (x.withArgs v 0 0).run .qsGetsym = { x.withArgs v 0 0 with result := wordOf (qsSymbol x.qs v.toNat) }.complete := by
  have hrun := run_answers (i := .qsGetsym) (by exact rfl) h
  rw [(x.arg_withArgs v 0 0).1, setResult_of_untainted (by exact ht)] at hrun
  exact hrun

theorem run_qsGetfreq {v : Word} (h : ((x.withArgs v 0 0).run .qsGetfreq).err = false) : (x.withArgs v 0 0).run .qsGetfreq
    = { x.withArgs v 0 0 with
        result := (qsFreq x.qs v.toNat).setWidth 32
        result1 := (x.qs.cf.get v.toNat).setWidth 32 }.complete := by
  have hrun := run_answers (i := .qsGetfreq) (by exact rfl) h
  rw [(x.arg_withArgs v 0 0).1, setResult1_of_untainted (by exact ht), setResult_of_untainted (by exact ht)] at hrun
  exact hrun

omit ht in
theorem run_qsUpdate {v : Word} (h : ((x.withArgs v 0 0).run .qsUpdate).err = false) :
    (x.withArgs v 0 0).run .qsUpdate = { x.withArgs v 0 0 with qs := qsCount x.qs v.toNat }.complete := by
  have hrun := run_answers (i := .qsUpdate) (by exact rfl) h
  rw [(x.arg_withArgs v 0 0).1] at hrun
  exact hrun

end

/-! ## Reads made of another buffer -/

/-- `buf'` holds the source bytes of `buf`. -/
def SourceAgrees (e : Env) (buf buf' : Store 8) : Prop := ∀ k < e.srcLen, buf'.get (e.srcBase + k) = buf.get (e.srcBase + k)

/-- `w` with the source cursor of `io`. -/
def Io.seek (w io : Io) : Io := { w with pos := io.pos }

theorem srcByte_seek {e : Env} {io w : Io} (hp : w.pos = io.pos) (ha : SourceAgrees e io.buf w.buf) :
    srcByte e w = (srcByte e io).map (fun p => (p.1, w.seek p.2)) := by
  by_cases h : 8 * e.srcLen ≤ alignUp io.pos
  · rw [srcByte_end h, srcByte_end (hp ▸ h), hp]
    rfl
  · have hlt := Nat.lt_of_not_le h
    rw [srcByte_of_lt hlt, srcByte_of_lt (hp ▸ hlt), hp, ha _ (by omega)]
    rfl

theorem rcNormalizeFrom_seek {g : RcCfg} {e : Env} {fuel n : Nat} {rc : Rc} {io w : Io} (hp : w.pos = io.pos)
    (ha : SourceAgrees e io.buf w.buf) : rcNormalizeFrom g e fuel n rc w
      = (rcNormalizeFrom g e fuel n rc io).map (fun p => (p.1, p.2.1, w.seek p.2.2)) := by
  induction fuel generalizing n rc io w with
  | zero => rw [rcNormalizeFrom, rcNormalizeFrom, hp]; rfl
  | succ fuel ih =>
    unfold rcNormalizeFrom
    split
    · rw [srcByte_seek hp ha]
      cases hb : srcByte e io with
      | error r => rfl
      | ok p =>
        obtain ⟨b, io'⟩ := p
        obtain ⟨-, -, rfl⟩ := srcByte_ok.mp hb
        exact ih rfl ha
    · rw [Except.map, Io.seek, ← hp]

/-- RC_CULSHIFT reads the same of every buffer that holds the source bytes. -/
theorem rcCulshift_seek {g : RcCfg} {e : Env} {sh : Nat} {rc : Rc} {io w : Io} (hp : w.pos = io.pos)
    (ha : SourceAgrees e io.buf w.buf) : rcCulshift g e sh rc w
      = (rcCulshift g e sh rc io).map (fun p => (p.1, p.2.1, w.seek p.2.2)) := by
  rw [rcCulshift, rcCulshift, rcNormalize, rcNormalize, rcNormalizeFrom_seek hp ha]
  cases rcNormalizeFrom g e (e.srcLen + 1) 0 rc io <;> rfl

/-! ## What a completed or failed RC_CULSHIFT says -/

/-- A normalisation keeps the cursor in the source and the decoder's state. -/
theorem rcNormalizeFrom_ok {g : RcCfg} {e : Env} {fuel n m : Nat} {rc rc' : Rc} {io io' : Io} (hp : io.pos ≤ 8 * e.srcLen)
    (h : rcNormalizeFrom g e fuel n rc io = .ok (m, rc', io')) : io'.pos ≤ 8 * e.srcLen ∧ rc'.st = rc.st := by
  induction fuel generalizing n rc io with
  | zero => cases h
  | succ fuel ih =>
    unfold rcNormalizeFrom at h
    split at h
    · split at h
      · cases h
      · next hb =>
        obtain ⟨hlt, -, rfl⟩ := srcByte_ok.mp hb
        have hmod := alignUp_mod io.pos
        have hle : alignUp io.pos + 8 ≤ 8 * e.srcLen := by omega
        have hrest := ih (io := { io with pos := alignUp io.pos + 8 }) hle h
        exact hrest
    · cases h
      exact ⟨hp, rfl⟩

/-- A normalisation fails only at the end of the source (R506). -/
theorem rcNormalizeFrom_error {g : RcCfg} {e : Env} {fuel n : Nat} {rc : Rc} {io : Io} {r : Raise}
    (h : rcNormalizeFrom g e fuel n rc io = .error r) : r.err = .truncatedInput := by
  induction fuel generalizing n rc io with
  | zero => cases h; rfl
  | succ fuel ih =>
    unfold rcNormalizeFrom at h
    split at h
    · split at h
      · next hb =>
        cases h
        unfold srcByte at hb
        dsimp only at hb
        split at hb
        · cases hb; rfl
        · cases hb
      · exact ih h
    · cases h

/-- The target of RC_CULSHIFT is a word (R207). -/
theorem rcCulshift_target_lt {g : RcCfg} {e : Env} {sh t : Nat} {rc rc' : Rc} {io io' : Io} (hsh : sh < 32)
    (h : rcCulshift g e sh rc io = .ok (t, rc', io')) : t < 2 ^ 32 := by
  obtain ⟨⟨m, rc1, io1⟩, -, hrest⟩ := Run.bind_ok.mp h
  cases hrest
  have hlow := rc1.low.isLt
  have hdiv := Nat.div_le_self rc1.low.toNat (rc1.range >>> sh).toNat
  have hpow : 2 ^ sh ≤ 2 ^ 32 := Nat.pow_le_pow_right (by decide) (by omega)
  have hpos := Nat.two_pow_pos sh
  split <;> omega

theorem rcCulshift_ok {g : RcCfg} {e : Env} {sh t : Nat} {rc rc' : Rc} {io io' : Io} (hp : io.pos ≤ 8 * e.srcLen)
    (h : rcCulshift g e sh rc io = .ok (t, rc', io')) : io'.pos ≤ 8 * e.srcLen ∧ rc'.st = rc.st := by
  obtain ⟨⟨m, rc1, io1⟩, hn, hrest⟩ := Run.bind_ok.mp h
  cases hrest
  have hok := rcNormalizeFrom_ok hp hn
  exact hok

theorem rcCulshift_error {g : RcCfg} {e : Env} {sh : Nat} {rc : Rc} {io : Io} {r : Raise}
    (h : rcCulshift g e sh rc io = .error r) : r.err = .truncatedInput := by
  refine rcNormalizeFrom_error (g := g) (e := e) (fuel := e.srcLen + 1) (n := 0) (rc := rc) (io := io) ?_
  rw [rcCulshift, rcNormalize] at h
  cases hn : rcNormalizeFrom g e (e.srcLen + 1) 0 rc io with
  | error r' => rw [hn] at h; exact h
  | ok p => rw [hn] at h; cases h

end Sys2Proof.Machine
end

section
/-! PROOFS. RC_DECODE does what its primitive commands do (41_range_coder.md R230, R231): the machine that runs them one by one
simulates the loop. -/

namespace Sys2Proof.Machine

/-! ## A turn of the primitive commands -/

/-- A turn that ends without an error began without one. -/
theorem err_of_rcTurn {x : State} (h : x.rcTurn.2.err = false) : x.err = false :=
  have hupdate := err_of_run (i := .rcUpdate) (s := State.withArgs _ _ _ _) h
  have hfreq := err_of_run (i := .qsGetfreq) (s := State.withArgs _ _ _ _) hupdate
  have hsym := err_of_run (i := .qsGetsym) (s := State.withArgs _ _ _ _) hfreq
  err_of_run hsym

theorem toNat_setWidth_word (v : BitVec 16) : (v.setWidth 32).toNat = v.toNat :=
  BitVec.toNat_setWidth_of_le (by decide)

/-- What a turn that ends without an error does: the commands' computations in a row. -/
theorem rcTurn_eq {x : State} (hx : x.tainted = false) (herr : x.rcTurn.2.err = false) : ∃ t rc io args,
    rcCulshift x.rcCfg x.env (x.qs.lgTotf.setWidth 5).toNat x.rc x.io = .ok (t, rc, io)
    ∧ x.rcTurn = (wordOf (qsSymbol x.qs t), ({ x with
        rc := rcNarrow rc (qsFreq x.qs (qsSymbol x.qs t)).toNat (x.qs.cf.get (qsSymbol x.qs t)).toNat (2 ^ x.qs.lgTotf.toNat)
        result := (qsFreq x.qs (qsSymbol x.qs t)).setWidth 32
        result1 := (x.qs.cf.get (qsSymbol x.qs t)).setWidth 32
        args := args }.withPos io).complete) := by
  generalize hturn : x.rcTurn = turn at herr ⊢
  unfold State.rcTurn at hturn
  dsimp only at hturn
  generalize ha : x.culshiftRun = a at hturn
  generalize hb : (a.withArgs a.result 0 0).run .qsGetsym = b at hturn
  generalize hc : (b.withArgs b.result 0 0).run .qsGetfreq = c at hturn
  subst hturn
  have hcerr : c.err = false := err_of_run (s := c.withArgs _ _ _) herr
  rw [← hc] at hcerr
  have hberr : b.err = false := err_of_run (s := b.withArgs _ _ _) hcerr
  rw [← hb] at hberr
  have haerr : a.err = false := err_of_run (s := a.withArgs _ _ _) hberr
  rw [← ha] at haerr
  obtain ⟨t, rc, io, hcul, hrun⟩ := run_rcCulshift hx haerr
  have ht := rcCulshift_target_lt (x.qs.lgTotf.setWidth 5).isLt hcul
  have ha := ha.symm.trans hrun
  have hares : a.result = wordOf t := ha ▸ rfl
  have hb := hb.symm.trans (run_qsGetsym (ha ▸ rfl) hberr)
  have haqs : a.qs = x.qs := ha ▸ rfl
  rw [hares, wordOf_toNat ht, haqs] at hb
  have hbres : b.result = wordOf (qsSymbol x.qs t) := hb ▸ rfl
  have hc := hc.symm.trans (run_qsGetfreq (hb ▸ rfl) hcerr)
  have hbqs : b.qs = x.qs := hb ▸ haqs
  rw [hbres, wordOf_toNat (qsSymbol_lt ..), hbqs] at hc
  have hcres : c.result = (qsFreq x.qs (qsSymbol x.qs t)).setWidth 32 := hc ▸ rfl
  have hcres1 : c.result1 = (x.qs.cf.get (qsSymbol x.qs t)).setWidth 32 := hc ▸ rfl
  have hcrc : c.rc = rc := by rw [hc, hb, ha]; rfl
  have htot : (BitVec.ofNat 32 (2 ^ x.qs.lgTotf.toNat)).toNat = 2 ^ x.qs.lgTotf.toNat := by
    rw [BitVec.toNat_ofNat]
    exact Nat.mod_eq_of_lt (Nat.pow_lt_pow_right (by decide) (by omega))
  refine ⟨t, rc, io, (c.withArgs c.result c.result1 (BitVec.ofNat 32 (2 ^ x.qs.lgTotf.toNat))).args, hcul, Prod.ext hbres ?_⟩
  dsimp only
  rw [run_rcUpdate herr, hcrc, htot, hcres, hcres1, toNat_setWidth_word, toNat_setWidth_word, hc, hb, ha]
  rfl

/-! ## The simulation -/

/-- Counting a symbol keeps the model's total (R225). -/
theorem qsCount_fields (q : Qs) (sym : Nat) : (qsCount q sym).valid = q.valid ∧ (qsCount q sym).lgTotf = q.lgTotf := by
  obtain ⟨gvalid, -, -, glg, -, -, -⟩ := qsGrow_fields q
  obtain ⟨rvalid, rlg, -⟩ := qsRebuild_fields (qsGrow q)
  simp only [qsCount]
  split
  · rw [qsDoRescale]
    split
    · exact ⟨rfl, rfl⟩
    · exact ⟨rvalid.trans gvalid, rlg.trans glg⟩
  · exact ⟨rfl, rfl⟩

/-- Machine `x`, run from `s` by primitive commands, is where RC_DECODE of `s` is with `l`. The bytes RC_DECODE has stored are not
in the BUF of `x`, but the source reads the same. -/
structure Simulates (s x : State) (l : RcLoop) : Prop where
  cfg : x.cfg = s.cfg
  env : x.env = s.env
  untainted : x.tainted = false
  buf : x.buf = s.buf
  rc : x.rc = l.rc
  qs : x.qs = l.qs
  pos : x.src.pos.toNat = l.io.pos
  inside : l.io.pos ≤ 8 * s.src.len.toNat
  source : SourceAgrees s.env s.buf l.io.buf
  decoding : l.rc.st = .decoding
  valid : l.qs.valid = true
  total : 9 ≤ l.qs.lgTotf.toNat

/-- The cursor of a source inside BUF is a word. -/
theorem bitpos_lt {s : State} (h : s.srcInBounds = true) : 8 * s.src.len.toNat < 2 ^ 32 := by
  obtain ⟨hlen, -⟩ := srcInBounds_iff.mp h
  have hsize : s.cfg.bufSize ≤ 2 ^ 28 := by
    have := s.cfg.bufSel.isLt
    exact Nat.pow_le_pow_right (by decide) (by omega)
  omega

/-- The spans of a command whose output is determined. -/
theorem env_of_untainted {s : State} (h : s.tainted = false) : { s.env with taint := none } = s.env := by
  have ht : s.env.taint = none := by
    show s.taint = none
    rw [State.taint, h]
    rfl
  rw [← ht]

namespace Simulates

variable {s x : State} {l : RcLoop} (h : Simulates s x l)
include h

theorem rcCfg_eq : x.rcCfg = s.rcCfg := by simp only [State.rcCfg, h.cfg]

theorem shift_eq : (x.qs.lgTotf.setWidth 5).toNat = l.qs.lgTotf.toNat := by
  rw [h.qs, BitVec.toNat_setWidth]
  exact Nat.mod_eq_of_lt (by omega)

/-- RC_CULSHIFT of the machine and of the loop. -/
theorem rcCulshift_eq : rcCulshift s.rcCfg s.env l.qs.lgTotf.toNat l.rc l.io
    = (rcCulshift x.rcCfg x.env (x.qs.lgTotf.setWidth 5).toNat x.rc x.io).map (fun p => (p.1, p.2.1, l.io.seek p.2.2)) := by
  rw [h.rcCfg_eq, h.env, h.shift_eq, h.rc]
  exact rcCulshift_seek h.pos.symm (fun k hk => (h.source k hk).trans (congrArg (Store.get · _) h.buf.symm))

/-- A turn of the primitive commands that ends without an error is a turn of the loop. -/
theorem turn (hs : s.srcInBounds = true) (herr : x.rcTurn.2.err = false) : ∃ t rc io,
    rcCulshift s.rcCfg s.env l.qs.lgTotf.toNat l.rc l.io = .ok (t, rc, l.io.seek io)
    ∧ x.rcTurn.1 = wordOf (qsSymbol l.qs t)
    ∧ Simulates s x.rcTurn.2 ⟨rcNarrow rc (qsFreq l.qs (qsSymbol l.qs t)).toNat (l.qs.cf.get (qsSymbol l.qs t)).toNat
      (2 ^ l.qs.lgTotf.toNat), l.qs, l.io.seek io⟩ := by
  obtain ⟨t, rc, io, args, hcul, hturn⟩ := rcTurn_eq h.untainted herr
  have hstart : x.src.pos.toNat ≤ 8 * x.env.srcLen := by rw [h.env, h.pos]; exact h.inside
  obtain ⟨hpos, hst⟩ := rcCulshift_ok hstart hcul
  have hin : io.pos ≤ 8 * s.src.len.toNat := by rw [h.env] at hpos; exact hpos
  rw [h.qs] at hturn
  rw [hturn]
  refine ⟨t, rc, io, by rw [h.rcCulshift_eq, hcul]; rfl, rfl, ?_⟩
  exact {
    cfg := h.cfg
    env := (env_of_untainted h.untainted).trans h.env
    untainted := rfl
    buf := h.buf
    rc := rfl
    qs := rfl
    pos := wordOf_toNat (Nat.lt_of_le_of_lt hin (bitpos_lt hs))
    inside := hin
    source := h.source
    decoding := hst.trans ((congrArg Rc.st h.rc).trans h.decoding)
    valid := h.valid
    total := h.total }

/-- QS_UPDATE and the loop's store of the symbol: the stored byte lies outside the source. -/
theorem store (hcalm : s.calm) {b : Byte} (herr : ((x.withArgs (b.setWidth 32) 0 0).run .qsUpdate).err = false)
    (hroom : l.io.out < s.dst.len.toNat) : Simulates s ((x.withArgs (b.setWidth 32) 0 0).run .qsUpdate)
      ⟨l.rc, qsCount l.qs b.toNat, dstPut s.env l.io b⟩ := by
  obtain ⟨hvalid, hlg⟩ := qsCount_fields l.qs b.toNat
  have hb : (b.setWidth 32).toNat = b.toNat := BitVec.toNat_setWidth_of_le (by decide)
  rw [run_qsUpdate herr, hb]
  exact {
    cfg := h.cfg
    env := (env_of_untainted h.untainted).trans h.env
    untainted := rfl
    buf := h.buf
    rc := h.rc
    qs := congrArg (qsCount · b.toNat) h.qs
    pos := h.pos
    inside := h.inside
    source := fun k hk => (putByte_get_out (apart_of_calm hcalm (Nat.le_add_right ..)
      (Nat.add_lt_add_left hroom _) hk).symm).trans (h.source k hk)
    decoding := h.decoding
    valid := hvalid.trans h.valid
    total := hlg ▸ h.total }

end Simulates

/-- Turns that end without an error began without one. -/
theorem err_of_rcReads {x u : State} {bytes : List Byte} (hr : x.rcReads bytes u) (h : u.err = false) : x.err = false := by
  induction bytes generalizing x with
  | nil => exact hr ▸ h
  | cons b rest ih =>
    have hupdate := err_of_run (s := x.rcTurn.2.withArgs _ _ _) (ih hr.2)
    exact err_of_rcTurn hupdate

/-- The loop over symbols that the primitive commands decode, with room for them all. -/
theorem Simulates.reads {s x u : State} {l : RcLoop} {bytes : List Byte} (hcalm : s.calm) (hs : s.srcInBounds = true)
    (h : Simulates s x l) (hr : x.rcReads bytes u) (herr : u.err = false) (hroom : l.io.out + bytes.length ≤ s.dst.len.toNat) :
    ∃ l', Simulates s u l' ∧ l'.io.out = l.io.out + bytes.length
    ∧ l'.io.buf = putStrided l.io.buf (s.dst.base.toNat + l.io.out) 1 bytes
    ∧ ∀ fuel, rcDecodeFrom s.rcCfg s.env (fuel + bytes.length) l = rcDecodeFrom s.rcCfg s.env fuel l' := by
  induction bytes generalizing x l with
  | nil =>
    obtain rfl := hr
    exact ⟨l, h, rfl, rfl, fun _ => rfl⟩
  | cons b rest ih =>
    obtain ⟨hsym, hrest⟩ := hr
    rw [List.length_cons] at hroom
    have hupdate := err_of_rcReads hrest herr
    obtain ⟨t, rc, io, hcul, hturn, hnext⟩ := h.turn hs (err_of_run (s := x.rcTurn.2.withArgs _ _ _) hupdate)
    have hb : qsSymbol l.qs t = b.toNat := by
      have := congrArg BitVec.toNat (hturn.symm.trans hsym)
      rwa [wordOf_toNat (qsSymbol_lt ..), BitVec.toNat_setWidth_of_le (by decide)] at this
    rw [hb] at hnext
    have hroom' : l.io.out < s.dst.len.toNat := by omega
    obtain ⟨l', hsim, hout, hbuf, hloop⟩ := ih (hnext.store hcalm hupdate hroom') hrest
      (show l.io.out + 1 + rest.length ≤ s.dst.len.toNat by omega)
    refine ⟨l', hsim, ?_, ?_, fun fuel => ?_⟩
    · rw [hout, List.length_cons]
      show l.io.out + 1 + rest.length = _
      omega
    · rw [hbuf, putStrided, ← taint_of_calm hcalm]
      rfl
    · rw [← hloop fuel, List.length_cons, ← Nat.add_assoc, rcDecodeFrom, hcul]
      have hfull : dstFull s.env (l.io.seek io) = false := decide_eq_false (Nat.not_le_of_lt hroom')
      have hlt := b.isLt
      simp only [hb, hfull, if_neg (show b.toNat ≠ 256 by omega), BitVec.ofNat_toNat, BitVec.setWidth_eq, Bool.false_eq_true,
        if_false]

/-! ## The ends of the loop -/

/-- A completed start leaves the cursor in the source and the decoder decoding (R204). -/
theorem rcStartup_ok {g : RcCfg} {e : Env} {io io' : Io} {c : Byte} {rc : Rc} (h : rcStartup g e io = .ok (c, rc, io')) :
    io'.pos ≤ 8 * e.srcLen ∧ rc.st = .decoding := by
  obtain ⟨⟨c1, io1⟩, -, h⟩ := Run.bind_ok.mp h
  obtain ⟨⟨b, io2⟩, hb, h⟩ := Run.bind_ok.mp h
  obtain ⟨hlt, -, rfl⟩ := srcByte_ok.mp hb
  cases h
  have hmod := alignUp_mod io1.pos
  exact ⟨by show alignUp io1.pos + 8 ≤ _; omega, rfl⟩

/-- RC_START and QS_RESET do what RC_DECODE begins with. -/
theorem State.RcReady.simulates {s : State} (h : s.RcReady) (hg : s.qs.Good)
    (herr : ((s.run .rcStart).run .qsReset).err = false) : ∃ c rc io, rcStartup s.rcCfg s.env s.io = .ok (c, rc, io)
    ∧ Simulates s ((s.run .rcStart).run .qsReset) ⟨rc, qsRestart s.qs, io⟩ ∧ io.out = s.dst.pos.toNat ∧ io.buf = s.buf
    ∧ (s.run .rcStart).result = c.setWidth 32 := by
  obtain ⟨ht, -⟩ := h.calm
  obtain ⟨c, rc, io, hstart, hrun⟩ := run_rcStart ht (err_of_run herr)
  obtain ⟨hbuf, hout⟩ := (rcStartup_meets ..).of_ok hstart
  obtain ⟨hpos, hst⟩ := rcStartup_ok hstart
  obtain ⟨hvalid, hlg, -⟩ := qsRestart_fields s.qs
  have hbuf : io.buf = s.buf := hbuf
  refine ⟨c, rc, io, hstart, ?_, hout, hbuf, by rw [hrun]; rfl⟩
  rw [run_qsReset herr, hrun]
  exact {
    cfg := rfl
    env := env_of_untainted ht
    untainted := rfl
    buf := rfl
    rc := rfl
    qs := rfl
    pos := wordOf_toNat (Nat.lt_of_le_of_lt hpos (bitpos_lt h.src))
    inside := hpos
    source := fun k _ => congrArg (Store.get · _) hbuf
    decoding := hst
    valid := hvalid.trans h.valid
    total := hlg ▸ hg.total_range }

section

variable {s x : State} {l : RcLoop} (h : Simulates s x l)
include h

theorem Simulates.srcInBounds (hs : s.srcInBounds = true) : x.srcInBounds = true := by
  obtain ⟨hlen, -⟩ := srcInBounds_iff.mp hs
  have hbase : x.src.base.toNat = s.src.base.toNat := congrArg Env.srcBase h.env
  have hlen' : x.src.len.toNat = s.src.len.toNat := congrArg Env.srcLen h.env
  rw [srcInBounds_iff, hbase, hlen', h.pos, h.cfg]
  exact ⟨hlen, h.inside⟩

/-- A RC_CULSHIFT that aborts is the loop's end at a short source. -/
theorem Simulates.short (hs : s.srcInBounds = true) (herr : x.err = false) (hcul : x.culshiftRun.err = true) :
    ∃ r, rcCulshift s.rcCfg s.env l.qs.lgTotf.toNat l.rc l.io = .error r ∧ r.err = .truncatedInput
    ∧ r.info = x.culshiftRun.errinfo := by
  rw [h.rcCulshift_eq]
  have hlg := l.qs.lgTotf.isLt
  have hlg9 := h.total
  have hchecks : (do
      x.requireDecoding
      require (decide (1 ≤ (x.qs.lgTotf.setWidth 5).toNat) && decide ((x.qs.lgTotf.setWidth 5).toNat ≤ 16)) .badOperand
        (immWord (x.qs.lgTotf.setWidth 5))
      x.checkSrc : Run Unit) = .ok () := by
    rw [requireDecoding_ok (h.rc ▸ h.decoding), checkSrc_ok (h.srcInBounds hs), h.shift_eq,
      require_ok.mpr (by simp; omega)]
    rfl
  cases hrun : rcCulshift x.rcCfg x.env (x.qs.lgTotf.setWidth 5).toNat x.rc x.io with
  | ok p =>
    have hexec : exec (.rcCulshift (x.qs.lgTotf.setWidth 5)) x = .next _ :=
      runCommand_complete hchecks (Run.bind_ok.mpr ⟨p, hrun, rfl⟩)
    rw [State.culshiftRun, State.run_of_exec hexec] at hcul
    exact absurd (herr.symm.trans hcul) (by decide)
  | error r =>
    have hexec : exec (.rcCulshift (x.qs.lgTotf.setWidth 5)) x = .next _ :=
      runCommand_fail (r := r) hchecks (by rw [hrun]; rfl)
    rw [State.culshiftRun, State.run_of_exec hexec]
    exact ⟨r, rfl, rcCulshift_error hrun, rfl⟩

end

end Sys2Proof.Machine
end

section
/-! PROOFS. RC_DECODE (41_range_coder.md R230, R231). -/

namespace Sys2Proof.Machine

/-- RC_DECODE after its primitive commands have decoded `bytes`: what its loop carries, and what is left of its run. -/
structure State.Decoded (s u : State) (bytes : List Byte) (l : RcLoop) : Prop where
  sim : Simulates s u l
  out : l.io.out = s.dst.pos.toNat + bytes.length
  buf : l.io.buf = putStrided s.buf (s.dst.base.toNat + s.dst.pos.toNat) 1 bytes
  completes : ∀ {l'}, rcDecodeFrom s.rcCfg s.env (s.dst.len.toNat - s.dst.pos.toNat - bytes.length + 1) l = .ok l' →
    exec .rcDecode s = .next (((({ s with rc := l'.rc, qs := l'.qs }.withIo l'.io).setResult
      (wordOf (l'.io.out - s.dst.pos.toNat))).setResult1 (s.run .rcStart).result).finished)
  fails : ∀ {r}, rcDecodeFrom s.rcCfg s.env (s.dst.len.toNat - s.dst.pos.toNat - bytes.length + 1) l = .error r →
    raises .rcDecode s 2 4 r.err.code r.info

/-- The primitive commands lead RC_DECODE to where they are. -/
theorem State.RcReady.decoded {s u : State} {bytes : List Byte} (h : s.RcReady) (hg : s.qs.Good) (hroom : s.dst.pos ≠ s.dst.len)
    (hlen : bytes.length ≤ s.dst.len.toNat - s.dst.pos.toNat) (hr : ((s.run .rcStart).run .qsReset).rcReads bytes u)
    (herr : u.err = false) : ∃ l, s.Decoded u bytes l := by
  obtain ⟨-, hpos⟩ := dstInBounds_iff.mp h.dst
  obtain ⟨c, rc, io, hstart, hsim, hout, hbuf, hc⟩ := h.simulates hg (err_of_rcReads hr herr)
  obtain ⟨l, hsim', hout', hbuf', hloop⟩ := hsim.reads h.calm h.src hr herr (by simp only [hout]; omega)
  have hloop : rcDecodeFrom s.rcCfg s.env (s.dst.len.toNat - s.dst.pos.toNat + 1) ⟨rc, qsRestart s.qs, io⟩
      = rcDecodeFrom s.rcCfg s.env (s.dst.len.toNat - s.dst.pos.toNat - bytes.length + 1) l := by
    rw [← hloop]
    congr 1
    omega
  simp only [hout, hbuf] at hout' hbuf'
  exact ⟨l, hsim', hout', hbuf', fun hl => by rw [hc]; exact h.completes hroom hstart (hloop.trans hl),
    fun hl => h.raises_loop hroom hstart (hloop.trans hl)⟩

namespace State.Decoded

variable {s u : State} {bytes : List Byte} {l : RcLoop} (h : s.Decoded u bytes l) (hs : s.srcInBounds = true)
include h

/-- The bytes stored so far (R109). -/
theorem stored : (∀ i, (hi : i < bytes.length) → l.io.buf.get (s.dst.base.toNat + s.dst.pos.toNat + i) = bytes[i])
    ∧ ∀ a, a < s.dst.base.toNat + s.dst.pos.toNat ∨ s.dst.base.toNat + s.dst.pos.toNat + bytes.length ≤ a →
      l.io.buf.get a = s.buf.get a := by
  rw [h.buf]
  refine ⟨fun i hi => ?_, fun a ha => putStrided_get_out _ fun j hj => ?_⟩
  · rw [← putStrided_get s.buf (a := s.dst.base.toNat + s.dst.pos.toNat) Nat.one_pos bytes i hi, Nat.mul_one]
  · omega

include hs

/-- The terminal symbol ends RC_DECODE (R230). -/
theorem terminal (hsym : u.rcTurn.1 = 256) (hturn : u.rcTurn.2.err = false) : exec .rcDecode s = .next
    ((({ s with
        rc := { u.rcTurn.2.rc with st := .done }
        qs := u.qs
        buf := l.io.buf
        dst := { s.dst with pos := s.dst.pos + BitVec.ofNat 32 bytes.length } }.atBit u.rcTurn.2.src.pos.toNat).setResult
          (BitVec.ofNat 32 bytes.length)).setResult1 (s.run .rcStart).result).finished := by
  obtain ⟨t, rc, io, hcul, hfirst, hnext⟩ := h.sim.turn hs hturn
  have h256 : qsSymbol l.qs t = 256 := by
    have := congrArg BitVec.toNat (hfirst.symm.trans hsym)
    rwa [wordOf_toNat (qsSymbol_lt ..)] at this
  have hdone := h.completes (rcDecodeFrom_terminal hcul h256)
  rw [h256] at hnext
  have hpos : wordOf l.io.out = s.dst.pos + BitVec.ofNat 32 bytes.length := by
    rw [h.out, wordOf, BitVec.ofNat_add, BitVec.ofNat_toNat, BitVec.setWidth_eq]
  have hlen : l.io.out - s.dst.pos.toNat = bytes.length := by rw [h.out, Nat.add_sub_cancel_left]
  rw [hdone, hnext.rc, hnext.pos, h.sim.qs, ← hpos, ← hlen]
  rfl

/-- A further symbol with no room left is DestinationFull (R230). -/
theorem full (hsym : u.rcTurn.1 ≠ 256) (hturn : u.rcTurn.2.err = false)
    (hlen : bytes.length = s.dst.len.toNat - s.dst.pos.toNat) (hd : s.dst.pos.toNat ≤ s.dst.len.toNat) :
    raises .rcDecode s 2 4 7 s.dst.len := by
  obtain ⟨t, rc, io, hcul, hfirst, -⟩ := h.sim.turn hs hturn
  have h256 : qsSymbol l.qs t ≠ 256 := fun h256 => hsym (by rw [hfirst, h256]; rfl)
  have hout : l.io.out = s.dst.len.toNat := by rw [h.out]; omega
  have hfull : dstFull s.env (l.io.seek io) = true := decide_eq_true (Nat.le_of_eq hout.symm)
  have hloop : rcDecodeFrom s.rcCfg s.env (s.dst.len.toNat - s.dst.pos.toNat - bytes.length + 1) l
      = .error ⟨.destinationFull, s.dst.len⟩ := by
    rw [rcDecodeFrom, hcul]
    dsimp only
    rw [if_neg h256, if_pos hfull, show (l.io.seek io).out = l.io.out from rfl, hout, wordOf_toNat_word]
    rfl
  have hraise := h.fails hloop
  exact hraise

/-- A source that ends before the next symbol is TruncatedInput (R230). -/
theorem short (herr : u.err = false) (hcul : u.culshiftRun.err = true) : raises .rcDecode s 2 4 2 u.culshiftRun.errinfo := by
  obtain ⟨r, hr, hcode, hinfo⟩ := h.sim.short hs herr hcul
  have hraise := h.fails (r := r) (by rw [rcDecodeFrom, hr])
  rwa [hcode, hinfo] at hraise

end State.Decoded

/-- Settles O27. The loop is simulated by its primitive commands (`Simulates`); a stream of ones gives the highest target, which
after a reset lies in the interval of the terminal symbol (`qsSymbol_top`). -/
theorem rcDecodeRunsItsPrimitives : Obligations.RcDecodeRunsItsPrimitives := by
  unfold Obligations.RcDecodeRunsItsPrimitives
  refine ⟨fun s u bytes hcalm _ hvalid hg hs hd hroom hlen hr herr => ?_, fun s c hcalm hvalid hg hs hd hroom hbytes =>
    rcDecode_ones ⟨hcalm, hvalid, hs, hd⟩ hg hroom hbytes, fun s hcalm hvalid hs hd hroom =>
    State.RcReady.noRoom ⟨hcalm, hvalid, hs, hd⟩ hroom⟩
  obtain ⟨l, h⟩ := State.RcReady.decoded ⟨hcalm, hvalid, hs, hd⟩ hg hroom hlen hr herr
  obtain ⟨-, hpos⟩ := dstInBounds_iff.mp hd
  exact ⟨fun hsym hturn => ⟨_, h.terminal hs hsym hturn, rfl, h.stored⟩,
    fun hsym hturn hfull => h.full hs hsym hturn hfull hpos, h.short hs herr⟩

end Sys2Proof.Machine
end

section
/-! PROOFS. The encoding (30_encoding.md): the decoder and the encoder are inverse to each other, and a word that is no command
aborts. -/

namespace Sys2Proof

/-! ## What a row of the opcode map compares and reads -/

/-- Row `r` compares every bit but the low `n`, and its command `c` takes those as the immediate (R131, R133). -/
structure OpRow.Reads (r : OpRow) (n : Nat) (c : BitVec n → Instr) : Prop where
  width : n ≤ 24
  mask_eq : r.mask = BitVec.allOnes 32 <<< n
  mtch_high : r.mtch &&& 0xFF000000 = r.mtch
  build_eq : ∀ w, r.build w = c (w.setWidth n)
  encode_eq : ∀ v, encode (c v) = r.mtch ||| v.setWidth 32

/-- The compared bits beside an `n`-bit immediate. -/
theorem getElem_compared (n : Nat) {k : Nat} (hk : k < 32) : (BitVec.allOnes 32 <<< n)[k] = decide (n ≤ k) := by
  rw [BitVec.getElem_shiftLeft]
  by_cases hn : k < n
  · simp [hn]
  · rw [BitVec.getElem_allOnes]
    simp [hn, Nat.not_lt.mp hn]

/-- A word is its compared bits beside its immediate. -/
theorem compared_or_imm (w : Word) (n : Nat) : w &&& BitVec.allOnes 32 <<< n ||| (w.setWidth n).setWidth 32 = w := by
  ext k hk
  rw [BitVec.getElem_or, BitVec.getElem_and, getElem_compared n hk]
  by_cases hkn : k < n
  · simp [hkn, hk]
  · simp [Nat.not_lt.mp hkn]

/-- A word whose bits are UNIT and OP alone has no bit in an immediate's field. -/
theorem getElem_of_high {t : Word} (ht : t &&& 0xFF000000 = t) {k : Nat} (hk : k < 24) : t[k] = false := by
  have hmask : ∀ j : Fin 24, (0xFF000000 : Word).getLsbD j = false := by decide
  rw [← BitVec.getLsbD_eq_getElem, ← ht, BitVec.getLsbD_and, hmask ⟨k, hk⟩, Bool.and_false]

namespace OpRow.Reads

variable {r : OpRow} {n : Nat} {c : BitVec n → Instr} (h : r.Reads n c)
include h

/-- A word the row accepts is the encoding of what the row reads from it: the other bits are compared. -/
theorem encode_build {w : Word} (hw : w &&& r.mask = r.mtch) : encode (r.build w) = w := by
  rw [h.build_eq, h.encode_eq, ← hw, h.mask_eq, compared_or_imm]

/-- The row accepts the words of its command, whatever the immediate. -/
theorem encode_and_mask (v : BitVec n) : encode (c v) &&& r.mask = r.mtch := by
  rw [h.encode_eq, h.mask_eq]
  ext k hk
  rw [BitVec.getElem_and, getElem_compared n hk]
  by_cases hkn : k < n
  · simp [getElem_of_high h.mtch_high (Nat.lt_of_lt_of_le hkn h.width), hkn]
  · simp [Nat.not_lt.mp hkn]

/-- The immediate is read back. -/
theorem build_encode (v : BitVec n) : r.build (encode (c v)) = c v := by
  have hv : (r.mtch ||| v.setWidth 32).setWidth n = v := by
    ext k hk
    have hk24 := Nat.lt_of_lt_of_le hk h.width
    simp [getElem_of_high h.mtch_high hk24, hk, Nat.lt_trans hk24]
  rw [h.build_eq, h.encode_eq, hv]

/-- A row is named by UNIT and OP of the words it accepts, since it compares all of their bits. -/
theorem high_of_match {w : Word} (hw : w &&& r.mask = r.mtch) : w &&& 0xFF000000 = r.mtch := by
  have hmask : r.mask &&& 0xFF000000 = 0xFF000000 := by
    rw [h.mask_eq]
    have hall : ∀ m : Fin 25, BitVec.allOnes 32 <<< m.val &&& 0xFF000000 = (0xFF000000 : Word) := by decide
    exact hall ⟨n, Nat.lt_succ_of_le h.width⟩
  calc w &&& 0xFF000000 = w &&& r.mask &&& 0xFF000000 := by rw [BitVec.and_assoc, hmask]
    _ = r.mtch := by rw [hw, h.mtch_high]

end OpRow.Reads

/-! ## The opcode map -/

/-- The row reads some command with its immediate. -/
def OpRow.ReadsCommand (r : OpRow) : Prop := ∃ n c, r.Reads n c

/-- A row whose command has an `n`-bit immediate. -/
theorem OpRow.ReadsCommand.imm {name : String} {mask mtch : Word} (n : Nat) (c : BitVec n → Instr)
    (encode_eq : ∀ v, encode (c v) = mtch ||| v.setWidth 32) (width : n ≤ 24 := by decide)
    (mask_eq : mask = BitVec.allOnes 32 <<< n := by decide) (high : mtch &&& 0xFF000000 = mtch := by decide) :
    OpRow.ReadsCommand ⟨name, mask, mtch, fun w => c (w.setWidth n)⟩ :=
  ⟨n, c, width, mask_eq, high, fun _ => rfl, encode_eq⟩

/-- A row whose command has no immediate. -/
theorem OpRow.ReadsCommand.bare {name : String} (i : Instr) (high : encode i &&& 0xFF000000 = encode i := by decide) :
    OpRow.ReadsCommand ⟨name, 0xFFFFFFFF, encode i, fun _ => i⟩ :=
  .imm 0 (fun _ => i) (fun v => by simp [v.eq_nil]) (high := high)

open OpRow.ReadsCommand in
theorem opRowsLow_read : ∀ r ∈ opRowsLow, r.ReadsCommand := by
  simp only [opRowsLow, List.forall_mem_cons]
  exact ⟨bare .nop, imm 4 .srstUnit fun _ => rfl,
    imm 1 .brInit fun _ => rfl, bare .brGetbit, imm 6 .brGetbits fun _ => rfl, imm 6 .brPeekbits fun _ => rfl, bare .brAlign,
    bare .rcStart, imm 5 .rcCulshift fun _ => rfl, bare .rcUpdate, bare .rcNormalize, bare .rcDecode,
    imm 4 .qsInit fun _ => rfl, bare .qsReset, bare .qsGetsym, bare .qsGetfreq, bare .qsUpdate, List.forall_mem_nil _⟩

open OpRow.ReadsCommand in
theorem opRowsMid_read : ∀ r ∈ opRowsMid, r.ReadsCommand := by
  simp only [opRowsMid, List.forall_mem_cons]
  exact ⟨imm 1 .hufInit fun _ => rfl, bare .hufGetcode, bare .hufSetctx,
    bare .golGamma, bare .golRunlen, bare .golValue, bare .golResetctx, bare .golDecode,
    bare .lzInit, imm 4 .lzDecompress fun _ => rfl, bare .camSetkey, bare .camDecblk, bare .camDecrange,
    bare .nekoSetkey64, bare .nekoSethash, bare .nekoDecrypt, List.forall_mem_nil _⟩

open OpRow.ReadsCommand in
theorem opRowsXf_read : ∀ r ∈ opRowsXf, r.ReadsCommand := by
  simp only [opRowsXf, List.forall_mem_cons]
  exact ⟨imm 4 .xfLoadq fun _ => rfl, imm 4 .xfIquant fun _ => rfl, imm 4 .xfGivens fun _ => rfl, imm 4 .xfIplot fun _ => rfl,
    imm 4 .xfIlot fun _ => rfl, imm 4 .xfIdct fun _ => rfl, imm 4 .xfStore16 fun _ => rfl, bare .xfClrcarry,
    imm 4 .xfLoadf fun _ => rfl, imm 4 .xfStoref fun _ => rfl, imm 4 .xfRestore fun _ => rfl, List.forall_mem_nil _⟩

theorem opRows_read : ∀ r ∈ opRows, r.ReadsCommand := by
  simp only [opRows, List.forall_mem_append]
  exact ⟨⟨opRowsLow_read, opRowsMid_read⟩, opRowsXf_read⟩

/-- No two rows have the same UNIT and OP. -/
theorem opRows_mtch_nodup : (opRows.map OpRow.mtch).Nodup := by decide

/-- At most one row accepts a word. -/
theorem opRows_unique {w : Word} {r r' : OpRow} (hr : r ∈ opRows) (hr' : r' ∈ opRows) (hw : w &&& r.mask = r.mtch)
    (hw' : w &&& r'.mask = r'.mtch) : r = r' := by
  obtain ⟨n, c, h⟩ := opRows_read r hr
  obtain ⟨n', c', h'⟩ := opRows_read r' hr'
  exact List.inj_on_of_nodup_map opRows_mtch_nodup hr hr' ((h.high_of_match hw).symm.trans (h'.high_of_match hw'))

/-- Every value of an immediate is the low field of a word. -/
theorem exists_imm_eq {n : Nat} (hn : n ≤ 32) (c : BitVec n → Instr) (v : BitVec n) : ∃ w : Word, c (w.setWidth n) = c v :=
  ⟨v.setWidth 32, by rw [BitVec.setWidth_setWidth_of_le _ hn, BitVec.setWidth_eq]⟩

/-- Every command has a row (R135). -/
theorem exists_opRow (i : Instr) : ∃ r ∈ opRows, ∃ w, r.build w = i := by
  simp only [opRows, opRowsLow, opRowsMid, opRowsXf, List.cons_append, List.nil_append, List.mem_cons, exists_eq_or_imp]
  cases i <;> simp only [reduceCtorEq, exists_false, false_or, true_or, or_true, exists_const]
  all_goals exact .inl (exists_imm_eq (by decide) _ _)

/-! ## The decoder -/

theorem findRow_eq_find? (w : Word) (rows : List OpRow) : findRow w rows = rows.find? fun r => w &&& r.mask == r.mtch := by
  induction rows with
  | nil => rfl
  | cons r rest ih => by_cases hw : w &&& r.mask = r.mtch <;> simp [findRow, hw, ih]

/-- The decoder answers what the row that accepts the word reads (R133). -/
theorem decode_eq_ok_iff {w : Word} {i : Instr} :
    decode w = .ok i ↔ ∃ r ∈ opRows, w &&& r.mask = r.mtch ∧ r.build w = i := by
  rw [decode, findRow_eq_find?]
  cases hf : opRows.find? fun r => w &&& r.mask == r.mtch with
  | none =>
    have hnone : ∀ r ∈ opRows, w &&& r.mask ≠ r.mtch := by simpa using hf
    simpa using fun r hr hw => absurd hw (hnone r hr)
  | some r =>
    have hr := List.mem_of_find?_eq_some hf
    have hw : w &&& r.mask = r.mtch := by simpa using List.find?_some hf
    refine ⟨fun h => ⟨r, hr, hw, Except.ok.inj h⟩, fun ⟨r', hr', hw', hi⟩ => ?_⟩
    rw [← hi, opRows_unique hr hr' hw hw']

/-- The words that decode are exactly the encodings. -/
theorem decode_eq_ok_iff_encode {w : Word} {i : Instr} : decode w = .ok i ↔ encode i = w := by
  rw [decode_eq_ok_iff]
  constructor
  · rintro ⟨r, hr, hw, rfl⟩
    obtain ⟨n, c, h⟩ := opRows_read r hr
    exact h.encode_build hw
  · rintro rfl
    obtain ⟨r, hr, w, rfl⟩ := exists_opRow i
    obtain ⟨n, c, h⟩ := opRows_read r hr
    rw [h.build_eq]
    exact ⟨r, hr, h.encode_and_mask _, h.build_encode _⟩

/-- Settles O1: the command's row accepts its word and reads the immediate back, and no other row accepts it. -/
theorem decodeOfEncode : Obligations.DecodeOfEncode := fun _ => decode_eq_ok_iff_encode.mpr rfl

/-- Settles O2: the row that accepted the word compares every bit it does not read. -/
theorem encodeOfDecode : Obligations.EncodeOfDecode := fun _ _ => decode_eq_ok_iff_encode.mp

/-- Settles O3: each word is the encoding of its command. -/
theorem decodesWrittenWords : Obligations.DecodesWrittenWords :=
  ⟨decodeOfEncode (.srstUnit 6), decodeOfEncode (.brGetbits 12), decodeOfEncode (.rcCulshift 12), decodeOfEncode .qsGetsym,
    decodeOfEncode (.hufInit 1), decodeOfEncode .golDecode, decodeOfEncode (.lzDecompress 2), decodeOfEncode .camDecblk,
    decodeOfEncode .nekoDecrypt, decodeOfEncode (.xfRestore 3), decodeOfEncode .xfClrcarry⟩

/-! ## Words that are no command -/

theorem wordUnit_eq (w : Word) : wordUnit w = w.toNat / 2 ^ 28 := by
  have := w.isLt
  simp only [wordUnit, BitVec.extractLsb'_toNat, Nat.shiftRight_eq_div_pow]
  omega

theorem wordOp_eq (w : Word) : wordOp w = w.toNat / 2 ^ 24 % 16 := by
  simp only [wordOp, BitVec.extractLsb'_toNat, Nat.shiftRight_eq_div_pow]

open Laws in
/-- No command's word lies in the reserved space (R134). -/
theorem reservedZero (i : Instr) : ReservedZero.Statement i :=
  match i with
  | .nop => ReservedZero.nop
  | .srstUnit u => ReservedZero.srstUnit u
  | .brInit lsb => ReservedZero.brInit lsb
  | .brGetbit => ReservedZero.brGetbit
  | .brGetbits n => ReservedZero.brGetbits n
  | .brPeekbits n => ReservedZero.brPeekbits n
  | .brAlign => ReservedZero.brAlign
  | .rcStart => ReservedZero.rcStart
  | .rcCulshift shift => ReservedZero.rcCulshift shift
  | .rcUpdate => ReservedZero.rcUpdate
  | .rcNormalize => ReservedZero.rcNormalize
  | .rcDecode => ReservedZero.rcDecode
  | .qsInit lg => ReservedZero.qsInit lg
  | .qsReset => ReservedZero.qsReset
  | .qsGetsym => ReservedZero.qsGetsym
  | .qsGetfreq => ReservedZero.qsGetfreq
  | .qsUpdate => ReservedZero.qsUpdate
  | .hufInit order1 => ReservedZero.hufInit order1
  | .hufGetcode => ReservedZero.hufGetcode
  | .hufSetctx => ReservedZero.hufSetctx
  | .golGamma => ReservedZero.golGamma
  | .golRunlen => ReservedZero.golRunlen
  | .golValue => ReservedZero.golValue
  | .golResetctx => ReservedZero.golResetctx
  | .golDecode => ReservedZero.golDecode
  | .lzInit => ReservedZero.lzInit
  | .lzDecompress variant => ReservedZero.lzDecompress variant
  | .camSetkey => ReservedZero.camSetkey
  | .camDecblk => ReservedZero.camDecblk
  | .camDecrange => ReservedZero.camDecrange
  | .nekoSetkey64 => ReservedZero.nekoSetkey64
  | .nekoSethash => ReservedZero.nekoSethash
  | .nekoDecrypt => ReservedZero.nekoDecrypt
  | .xfLoadq degree => ReservedZero.xfLoadq degree
  | .xfIquant degree => ReservedZero.xfIquant degree
  | .xfGivens degree => ReservedZero.xfGivens degree
  | .xfIplot degree => ReservedZero.xfIplot degree
  | .xfIlot degree => ReservedZero.xfIlot degree
  | .xfIdct degree => ReservedZero.xfIdct degree
  | .xfStore16 degree => ReservedZero.xfStore16 degree
  | .xfClrcarry => ReservedZero.xfClrcarry
  | .xfLoadf degree => ReservedZero.xfLoadf degree
  | .xfStoref degree => ReservedZero.xfStoref degree
  | .xfRestore degree => ReservedZero.xfRestore degree

/-- A word in the reserved space is no command. -/
theorem encode_ne_of_reserved {w : Word} (hw : 10 * 2 ^ 28 ≤ w.toNat ∨ w.toNat / 64 % 2 ^ 18 ≠ 0) (i : Instr) : encode i ≠ w := by
  rintro rfl
  obtain ⟨hunit, hfield⟩ := reservedZero i
  rw [wordUnit_eq] at hunit
  have hfield : (encode i).toNat / 64 % 2 ^ 18 = 0 := by
    simpa [BitVec.extractLsb'_toNat, Nat.shiftRight_eq_div_pow] using congrArg BitVec.toNat hfield
  omega

end Sys2Proof

namespace Sys2Proof.Machine

/-- An engine step on a word that is no command is the abort of R510 with IllegalCommand(cw) (R134). -/
theorem engineStep_illegal {s : State} (h : ∀ i, encode i ≠ s.cmd) :
    engineStep s = .next (s.aborted (s.cmd.toNat / 2 ^ 28) (s.cmd.toNat / 2 ^ 24 % 16) 4 s.cmd) := by
  have hunit : s.cmd.toNat / 2 ^ 28 < 16 := by have := s.cmd.isLt; omega
  unfold engineStep
  split
  · next i hi => exact absurd (decode_eq_ok_iff_encode.mp hi) (h i)
  · rw [wordId, wordUnit_eq, wordOp_eq, abort_eq_aborted hunit (Nat.mod_lt _ (by decide))]
    rfl

/-- Settles O5: only encodings decode, and no encoding lies in the reserved space. -/
theorem illegalCommandAborts : Obligations.IllegalCommandAborts := by
  refine ⟨fun s hbusy hturns h => ?_, fun w hw => encode_ne_of_reserved hw⟩
  rw [step, nextStep, hturns]
  exact (if_pos hbusy).trans (engineStep_illegal h)

end Sys2Proof.Machine
end

section
/-! PROOFS. The commands without a check, and SRST_UNIT (40_sys_bitreader.md R160 to R162). -/

namespace Sys2Proof.Machine

/-! ## The commands without a check -/

/-- A command without a check that answers at once completes with its answer (R512). -/
theorem finished_of_answer {i : Instr} {s u : State} (he : exec i s = runCommand s i.cmdId (.ok ()) (.ok u) s) :
    exec i s = .next u.finished :=
  he.trans (runCommand_complete rfl rfl)

/-! ## What SRST_UNIT resets -/

/-- The state with every chosen unit at the values of R162 and every other unit as it was. -/
def State.withReset (s : State) (chosen : Nat → Prop) [DecidablePred chosen] : State :=
  { s with
    lsb := if chosen 1 then false else s.lsb
    rc := if chosen 2 then Rc.atReset else s.rc
    qs := if chosen 3 then Qs.atReset s.draws else s.qs
    huf := if chosen 4 then Huf.atReset s.draws else s.huf
    gol := if chosen 5 then Gol.atReset else s.gol
    lz := if chosen 6 then Lz.atReset s.draws else s.lz
    cam := if chosen 7 then Cam.atReset s.draws else s.cam
    neko := if chosen 8 then Neko.atReset else s.neko
    xf := { s.xf with xc := if chosen 9 then blankStore 0 else s.xf.xc } }

theorem withReset_congr (s : State) {p q : Nat → Prop} [DecidablePred p] [DecidablePred q] (h : ∀ v, p v ↔ q v) :
    s.withReset p = s.withReset q := by
  simp only [State.withReset, h]

theorem unitReset_eq_withReset (s : State) (u : Nat) : s.unitReset u = s.withReset (u = ·) := by
  unfold State.unitReset
  split
  case h_10 h1 h2 h3 h4 h5 h6 h7 h8 h9 =>
    simp only [State.withReset, if_neg h1, if_neg h2, if_neg h3, if_neg h4, if_neg h5, if_neg h6, if_neg h7, if_neg h8,
      if_neg h9]
  all_goals rfl

theorem allUnitsReset_eq_withReset (s : State) : s.allUnitsReset = s.withReset fun _ => True := by
  simp only [State.allUnitsReset, List.foldl_cons, List.foldl_nil, State.unitReset, State.withReset, if_true]

/-- SRST_UNIT resets the unit it names, and every unit for 15 (R161). -/
theorem srstBody_eq_withReset (s : State) (u : Nat) :
    srstBody s u = (s.withReset fun v => u = v ∨ u = 15).endDraws := by
  unfold srstBody
  split
  · next h => rw [allUnitsReset_eq_withReset, withReset_congr s fun v => iff_of_true trivial (Or.inr (a := u = v) h)]
  · next h => rw [unitReset_eq_withReset, withReset_congr s fun v => (or_iff_left (a := u = v) h).symm]

/-- The part of SRST_UNIT's answer that belongs to unit `v`: where `u` chooses the unit it has what the new value has, elsewhere it
is the old value. -/
theorem reset_or_kept {α : Type} {u : BitVec 4} {new old : α} (v : Nat) (P : α → Prop) (hnew : P new)
    (hv : v < 16 := by decide) : if u = BitVec.ofNat 4 v ∨ u = 15 then P (if u.toNat = v ∨ u.toNat = 15 then new else old)
      else (if u.toNat = v ∨ u.toNat = 15 then new else old) = old := by
  have hchosen : (u = BitVec.ofNat 4 v ∨ u = 15) ↔ (u.toNat = v ∨ u.toNat = 15) := by
    simp [← BitVec.toNat_inj, Nat.mod_eq_of_lt hv]
  by_cases h : u.toNat = v ∨ u.toNat = 15
  · rwa [if_pos (hchosen.mpr h), if_pos h]
  · rw [if_neg (mt hchosen.mp h), if_neg h]

/-! ## SRST_UNIT -/

theorem exec_srstUnit_ok {s : State} {u : BitVec 4} (hu : u.toNat ≤ 9 ∨ u.toNat = 15) :
    exec (.srstUnit u) s = .next (s.withReset fun v => u.toNat = v ∨ u.toNat = 15).endDraws.finished := by
  rw [← srstBody_eq_withReset]
  exact runCommand_complete (after := s) (require_ok.mpr (by simpa using hu)) rfl

theorem exec_srstUnit_refused {s : State} {u : BitVec 4} (hu : 10 ≤ u.toNat ∧ u.toNat ≤ 14) :
    exec (.srstUnit u) s = .next (s.aborted 0 1 5 (u.setWidth 32)) := by
  have hcheck : (decide (u.toNat ≤ 9) || decide (u.toNat = 15)) = false := by simp; omega
  exact refused_of_check ⟨.badOperand, immWord u⟩ (show execSrstUnit u s = _ from rfl) (require_error.mpr ⟨hcheck, rfl⟩)

/-- Settles O22: the answer of each command without a check, and `State.withReset` read unit by unit. -/
theorem uncheckedCommandsAndSrstUnit : Obligations.UncheckedCommandsAndSrstUnit := by
  refine ⟨fun s => ⟨finished_of_answer rfl, fun l => finished_of_answer rfl, finished_of_answer rfl,
    fun k hk => hk ▸ finished_of_answer rfl, finished_of_answer rfl, finished_of_answer rfl⟩,
    fun s u => ⟨fun hu => ⟨_, exec_srstUnit_ok hu, rfl, ?lsb, ?rc, ?qs, ?huf, ?gol, ?lz, ?cam, ?neko, rfl, rfl, rfl, rfl, ?xc⟩,
      exec_srstUnit_refused⟩⟩
  case lsb => exact reset_or_kept 1 (· = false) rfl
  case rc => exact reset_or_kept 2 (· = (⟨0, 0, 0, 0, .idle⟩ : Rc)) rfl
  case qs =>
    exact reset_or_kept 3 (fun q : Qs => q.valid = false ∧ q.lgTotf = 0 ∧ q.shift = 0 ∧ q.target = 0 ∧ q.rescale = 0
      ∧ q.incr = 0 ∧ q.left = 0 ∧ q.nextleft = 0) ⟨rfl, rfl, rfl, rfl, rfl, rfl, rfl, rfl⟩
  case huf =>
    exact reset_or_kept 4 (fun x : Huf => x.valid = false ∧ x.order1 = false ∧ x.last = 0) ⟨rfl, rfl, rfl⟩
  case gol => exact reset_or_kept 5 (· = (⟨0, 3⟩ : Gol)) rfl
  case lz =>
    exact reset_or_kept 6 (fun z : Lz => z.valid = false ∧ z.r = 0 ∧ z.w = 0 ∧ z.fill = 0) ⟨rfl, rfl, rfl, rfl⟩
  case cam => exact reset_or_kept 7 (fun c : Cam => c.keyed = false) rfl
  case neko => exact reset_or_kept 8 (· = (⟨false, 0⟩ : Neko)) rfl
  case xc => exact reset_or_kept 9 (fun xc : Store 32 => ∀ i, xc.get i = 0) fun _ => rfl

end Sys2Proof.Machine
end

section
/-! PROOFS. The frequency model stays good (41_range_coder.md R216, R217, R225, R226): what a rescale, a reset and a count leave. -/

namespace Sys2Proof.Machine

/-! ## Sums of frequencies -/

theorem le_sumBelow (f : Nat → Nat) {k n : Nat} (hk : k < n) : f k ≤ sumBelow f n := by
  induction n with
  | zero => omega
  | succ n ih =>
    rw [sumBelow_succ]
    rcases Nat.lt_succ_iff_lt_or_eq.mp hk with h | rfl
    · exact (ih h).trans (Nat.le_add_right _ _)
    · exact Nat.le_add_left _ _

/-- One value raised by `d` raises the sum by `d`. -/
theorem sumBelow_raise {f g : Nat → Nat} {k n d : Nat} (hk : k < n) (hg : ∀ i < n, g i = f i + if i = k then d else 0) :
    sumBelow g n = sumBelow f n + d := by
  induction n with
  | zero => omega
  | succ n ih =>
    rw [sumBelow_succ, sumBelow_succ, hg n (Nat.lt_succ_self n)]
    rcases Nat.lt_succ_iff_lt_or_eq.mp hk with h | rfl
    · rw [ih h fun i hi => hg i (by omega), if_neg (by omega)]
      omega
    · rw [if_pos rfl, sumBelow_congr fun i hi => (hg i (by omega)).trans (by rw [if_neg (by omega), Nat.add_zero])]
      omega

/-! ## Rising cumulative frequencies and their buckets -/

/-- A bucket holds the lowest symbol that reaches it. -/
theorem bucketAt_lowest {lo hi : Nat → Nat} {j k n : Nat} (v : BitVec 16) (hk : k < n) (hlo : lo k ≤ j) (hhi : j ≤ hi k)
    (hbelow : ∀ i < k, hi i < j) : bucketAt lo hi j n v = BitVec.ofNat 16 k := by
  induction n generalizing v with
  | zero => omega
  | succ n ih =>
    rw [bucketAt]
    rcases Nat.lt_succ_iff_lt_or_eq.mp hk with h | rfl
    · exact ih _ h
    · rw [if_pos ⟨hlo, by omega⟩, bucketAt_out hbelow]

/-- The cumulative frequencies rise strictly (R226). -/
def CfRises (cf : Store 16) : Prop := ∀ i ≤ 256, (cf.get i).toNat < (cf.get (i + 1)).toNat

namespace CfRises

variable {cf : Store 16} (h : CfRises cf)
include h

theorem mono {i j : Nat} (hij : i ≤ j) (hj : j ≤ 257) : (cf.get i).toNat ≤ (cf.get j).toNat := by
  induction j, hij using Nat.le_induction with
  | base => exact Nat.le_refl _
  | succ j _ ih => exact (ih (by omega)).trans (Nat.le_of_lt (h j (by omega)))

theorem pred_toNat {i : Nat} (hi : i ≤ 256) : (cf.get (i + 1) - 1).toNat = (cf.get (i + 1)).toNat - 1 := by
  have := h i hi
  exact BitVec.toNat_sub_of_le (BitVec.le_def.mpr (by show 1 ≤ _; omega))

/-- The last bucket of a symbol is below every bucket that starts at or after the symbol's end. -/
theorem last_bucket_lt {i b shift : Nat} (hi : i ≤ 256) (hb : (cf.get (i + 1)).toNat ≤ b * 2 ^ shift) :
    (cf.get (i + 1) - 1).toNat >>> shift < b := by
  have := h i hi
  rw [h.pred_toNat hi, Nat.shiftRight_eq_div_pow, Nat.div_lt_iff_lt_mul (Nat.two_pow_pos _)]
  omega

/-- The search rebuild points a bucket at the symbol whose interval holds the bucket's first target (R216, R222). -/
theorem bucketsFrom_get_holding {b k shift : Nat} (hk : k ≤ 256) (hlo : (cf.get k).toNat ≤ b * 2 ^ shift)
    (hhi : b * 2 ^ shift < (cf.get (k + 1)).toNat) (search : Store 16) :
    (bucketsFrom cf shift 257 search).get b = BitVec.ofNat 16 k := by
  rw [bucketsFrom_get]
  refine bucketAt_lowest _ (by omega) ?_ ?_ fun i hi =>
    h.last_bucket_lt (by omega) ((h.mono hi (by omega)).trans hlo)
  · rw [Nat.shiftRight_eq_div_pow]
    exact Nat.div_le_of_le_mul (by rwa [Nat.mul_comm])
  · rw [h.pred_toNat hk, Nat.shiftRight_eq_div_pow, Nat.le_div_iff_mul_le (Nat.two_pow_pos _)]
    omega

/-- The search rebuild leaves a bucket past the total. -/
theorem bucketsFrom_get_past {b shift : Nat} (hb : (cf.get 257).toNat ≤ b * 2 ^ shift) (search : Store 16) :
    (bucketsFrom cf shift 257 search).get b = search.get b := by
  rw [bucketsFrom_get, bucketAt_out fun i hi => h.last_bucket_lt (by omega) ((h.mono hi (by omega)).trans hb)]

omit h in
/-- Every number from the first cumulative frequency to below the last lies in the interval of a symbol. -/
theorem exists_holding {t : Nat} (h0 : (cf.get 0).toNat ≤ t) (ht : t < (cf.get 257).toNat) :
    ∃ k ≤ 256, (cf.get k).toNat ≤ t ∧ t < (cf.get (k + 1)).toNat := by
  obtain ⟨-, hlt, hfound⟩ := searchFrom_spec (fuel := 17) h0 ht (by decide) (by decide)
  exact ⟨_, Nat.le_of_lt_succ hlt, hfound⟩

end CfRises

/-! ## A full rescale (R216) -/

/-- What no rescale changes of a model: the total with its bucket width, the target, and the ends of the two tables. -/
structure Qs.Sized (q : Qs) : Prop where
  total_range : 9 ≤ q.lgTotf.toNat
  shift_eq : q.shift.toNat = q.lgTotf.toNat - 7
  target_pos : q.target.toNat ≠ 0
  first : q.cf.get 0 = 0
  last : (q.cf.get 257).toNat = 2 ^ q.lgTotf.toNat
  bucket_end : (q.search.get 128).toNat = 256

theorem Qs.Good.sized {q : Qs} (h : q.Good) : q.Sized := { h with }

/-- The total is 128 bucket widths (R222). -/
theorem Qs.Sized.total_eq {q : Qs} (h : q.Sized) : 2 ^ q.lgTotf.toNat = 128 * 2 ^ q.shift.toNat := by
  have := h.total_range
  rw [show (128 : Nat) = 2 ^ 7 from rfl, ← Nat.pow_add, h.shift_eq]
  congr 1
  omega

/-- Every legal total gives each symbol a count. -/
theorem Qs.Sized.symbols_le {q : Qs} (h : q.Sized) : 257 ≤ (q.cf.get 257).toNat := by
  have : 2 ^ 9 ≤ 2 ^ q.lgTotf.toNat := Nat.pow_le_pow_right (by decide) h.total_range
  rw [h.last]
  omega

/-- The range of RESCALE (R216, R220). -/
def Qs.RescaleFits (q : Qs) : Prop := 18 ≤ q.rescale.toNat ∧ q.rescale.toNat ≤ 65535

section

variable {q : Qs} (hw : q.Whole) (hs : q.Sized)
include hw hs

/-- After a rescale each cumulative frequency is the sum of the frequencies collected below it. -/
theorem qsRebuild_cf {i : Nat} (hi : i ≤ 257) : ((qsRebuild q).cf.get i).toNat = sumBelow q.freq i := by
  rw [hw.rebuild_cf]
  split
  · rfl
  · rcases (by omega : i = 0 ∨ i = 257) with rfl | rfl
    · rw [hs.first]; rfl
    · exact hw.total

theorem qsRebuild_rises : CfRises (qsRebuild q).cf := fun i hi => by
  have := hw.counted i hi
  rw [qsRebuild_cf hw hs (by omega), qsRebuild_cf hw hs (by omega), sumBelow_succ]
  omega

/-- What a rescale does not change (R216). -/
theorem qsRebuild_sized : (qsRebuild q).Sized := by
  obtain ⟨-, hlg, hshift, htarget, -, hsearch⟩ := qsRebuild_fields q
  have hlast : ((qsRebuild q).cf.get 257).toNat = 2 ^ q.lgTotf.toNat := by
    rw [hw.rebuild_cf, if_neg (by omega), hs.last]
  refine ⟨by rw [hlg]; exact hs.total_range, by rw [hshift, hlg, hs.shift_eq], by rw [htarget]; exact hs.target_pos,
    BitVec.eq_of_toNat_eq ?_,
    by rw [hlg, hlast], ?_⟩
  · exact (qsRebuild_cf hw hs (Nat.zero_le _)).trans (sumBelow_zero _)
  · rw [hsearch, (qsRebuild_rises hw hs).bucketsFrom_get_past (by rw [hlast, hs.total_eq]), hs.bucket_end]

/-- Each bucket points at the symbol of its first target (R222, R226). -/
theorem qsRebuild_bucket {b : Nat} (hb : b < 128) : ((qsRebuild q).search.get b).toNat ≤ 256
    ∧ ((qsRebuild q).cf.get ((qsRebuild q).search.get b).toNat).toNat ≤ b * 2 ^ q.shift.toNat
    ∧ b * 2 ^ q.shift.toNat < ((qsRebuild q).cf.get (((qsRebuild q).search.get b).toNat + 1)).toNat := by
  obtain ⟨-, -, -, -, -, hsearch⟩ := qsRebuild_fields q
  have hrises := qsRebuild_rises hw hs
  have hfirst : b * 2 ^ q.shift.toNat < ((qsRebuild q).cf.get 257).toNat := by
    rw [hw.rebuild_cf, if_neg (by omega), hs.last, hs.total_eq]
    exact Nat.mul_lt_mul_of_pos_right hb (Nat.two_pow_pos _)
  obtain ⟨k, hk, hlo, hhi⟩ := CfRises.exists_holding (by rw [(qsRebuild_sized hw hs).first]; exact Nat.zero_le _) hfirst
  have hget : ((qsRebuild q).search.get b).toNat = k := by
    rw [hsearch, hrises.bucketsFrom_get_holding hk hlo hhi, BitVec.toNat_ofNat]
    exact Nat.mod_eq_of_lt (by omega)
  rw [hget]
  exact ⟨hk, hlo, hhi⟩

/-- A full rescale makes a good model, and the period it begins is not over (R216, R226). -/
theorem qsRebuild_good (hr : q.RescaleFits) : (qsRebuild q).Good ∧ (qsRebuild q).left ≠ 0 := by
  obtain ⟨-, -, hshift, -, hrescale, -⟩ := qsRebuild_fields q
  obtain ⟨hlow, hhigh⟩ := hr
  obtain ⟨hincr, hnext, hleft⟩ := hw.rebuild_counts (by omega) (by omega)
  have hmod : (qsRebuild q).nextleft.toNat < q.rescale.toNat := by
    rw [hnext]
    exact Nat.mod_lt _ (by omega)
  have hshared : (qsRebuild q).left.toNat * (qsRebuild q).incr.toNat
      + (qsRebuild q).nextleft.toNat * ((qsRebuild q).incr.toNat + 1) = (q.cf.get 257).toNat - (qsRebuild q).collected := by
    calc (qsRebuild q).left.toNat * (qsRebuild q).incr.toNat + (qsRebuild q).nextleft.toNat * ((qsRebuild q).incr.toNat + 1)
        = ((qsRebuild q).left.toNat + (qsRebuild q).nextleft.toNat) * (qsRebuild q).incr.toNat
          + (qsRebuild q).nextleft.toNat := by ring
      _ = q.rescale.toNat * (qsRebuild q).incr.toNat + (qsRebuild q).nextleft.toNat := by
        rw [hleft, Nat.sub_add_cancel (Nat.le_of_lt hmod)]
      _ = _ := by rw [hincr, hnext, Nat.div_add_mod]
  have hsized := qsRebuild_sized hw hs
  have hkept := hw.rebuild_collected_le
  refine ⟨{ hsized with
    rises := qsRebuild_rises hw hs
    counted := fun i hi => ?counted
    rescale_range := by rw [hrescale]; exact ⟨hlow, hhigh⟩
    conserved := ?conserved
    bucket := fun b hb => by rw [hshift]; exact qsRebuild_bucket hw hs hb }, fun h0 => ?period⟩
  case counted =>
    have hfreq : (qsRebuild q).freq i = _ := qsRebuild_freq q hi
    rw [or_one_eq] at hfreq
    show 1 ≤ (qsRebuild q).freq i
    omega
  case conserved =>
    rw [← hsized.last, hw.rebuild_cf, if_neg (by omega)]
    omega
  case period =>
    rw [h0] at hleft
    have : (0 : BitVec 16).toNat = 0 := rfl
    omega

end

/-! ## A reset (R217) -/

/-- The growth of RESCALE keeps it in its range (R216). -/
theorem qsGrow_rescaleFits {q : Qs} (h : q.RescaleFits) : (qsGrow q).RescaleFits := by
  obtain ⟨hlow, hhigh⟩ := h
  obtain ⟨-, -, -, -, -, -, hr⟩ := qsGrow_fields q
  have htarget := q.target.isLt
  unfold Qs.RescaleFits
  rw [hr]
  split
  · rw [BitVec.toNat_ofNat, Nat.mod_eq_of_lt (by omega)]
    omega
  · exact ⟨hlow, hhigh⟩

/-- The growth of RESCALE keeps the size of a model. -/
theorem qsGrow_sized {q : Qs} (h : q.Sized) : (qsGrow q).Sized := by
  unfold qsGrow
  split
  · exact { h with }
  · exact h

/-- The growth of RESCALE keeps the frequencies of a model. -/
theorem qsGrow_whole {q : Qs} (h : q.Whole) : (qsGrow q).Whole := by
  unfold qsGrow
  split
  · exact { h with }
  · exact h

/-- The model a reset rescales has a legal RESCALE. -/
theorem qsEqual_fits (q : Qs) : (qsGrow (qsEqual q)).RescaleFits :=
  qsGrow_rescaleFits (q := qsEqual q) ⟨Nat.le_refl 18, show 18 ≤ 65535 by decide⟩

section

variable {q : Qs} (h : q.Sized)
include h

/-- A reset makes a good model of every total and target (R217, R226). -/
theorem qsRestart_good : (qsRestart q).Good := by
  have hequal : (qsEqual q).Sized := { h with }
  rw [qsRestart_eq_rebuild]
  exact (qsRebuild_good (qsEqual_whole h.symbols_le) (qsGrow_sized hequal) (qsEqual_fits q)).1

/-- A reset that ends an initialisation makes a fresh model (R220). -/
theorem qsRestart_valid_fresh : ({ qsRestart q with valid := true } : Qs).Fresh q.lgTotf.toNat q.target.toNat := by
  obtain ⟨-, hlg, hshift, htarget, -, -⟩ := qsRestart_fields q
  obtain ⟨hlow, hhigh⟩ := qsEqual_fits q
  have hsame : (qsRestart q).rescale = (qsGrow (qsEqual q)).rescale := by
    obtain ⟨-, -, -, -, hr, -⟩ := qsRebuild_fields (qsGrow (qsEqual q))
    rw [qsRestart_eq_rebuild, hr]
  obtain ⟨hincr, hnext, hleft⟩ := (qsEqual_whole h.symbols_le).rebuild_counts (by omega) (by omega)
  rw [← qsRestart_eq_rebuild, ← hsame] at hincr hnext hleft
  rw [qsEqual_cf, h.last] at hincr hnext
  have hcf : ∀ i ≤ 257, ((qsRestart q).cf.get i).toNat = i * (2 ^ q.lgTotf.toNat / 257) + min i (2 ^ q.lgTotf.toNat % 257) :=
    fun i hi => by
      rw [← h.last]
      exact qsRestart_cf h.symbols_le h.first hi
  have hnewf : ∀ i ≤ 256, (qsRestart q).freq i = equalFreq (2 ^ q.lgTotf.toNat) i / 2 ||| 1 := fun i hi => by
    rw [qsRestart_eq_rebuild, qsRebuild_freq _ hi, qsEqual_freq q hi, h.last]
  have hrescale := (congrArg BitVec.toNat hsame).trans (qsEqual_rescale q)
  clear hsame
  generalize qsRestart q = r at *
  exact ⟨rfl, by rw [hlg], by rw [hshift, h.shift_eq], by rw [htarget], hcf, hnewf, hrescale, hincr, hnext, hleft⟩

end

/-- The total and the target of the model QS_INIT builds (R220). -/
theorem qsFresh_lgTotf (q : Qs) (lg : BitVec 4) (target : Word) : (qsFresh q lg.toNat target).lgTotf = lg := by
  simp [qsFresh]

theorem qsFresh_target (q : Qs) {lg : Nat} {target : Word} (h : target.toNat ≤ 65535) :
    (qsFresh q lg target).target.toNat = target.toNat :=
  (BitVec.toNat_setWidth ..).trans (Nat.mod_eq_of_lt (by omega))

/-- The model QS_INIT rescales has a legal size (R220). -/
theorem qsFresh_sized (q : Qs) {lg : BitVec 4} {target : Word} (hlg : 9 ≤ lg.toNat) (h1 : 1 ≤ target.toNat)
    (h2 : target.toNat ≤ 65535) : (qsFresh q lg.toNat target).Sized where
  total_range := by
    rw [qsFresh_lgTotf]
    exact hlg
  shift_eq := by
    have := lg.isLt
    rw [qsFresh_lgTotf]
    exact (BitVec.toNat_ofNat ..).trans (Nat.mod_eq_of_lt (by omega))
  target_pos := by
    rw [qsFresh_target q h2]
    omega
  first := by
    show ((q.cf.set 0 0).set 257 _).get 0 = 0
    rw [Store.get_set_other _ _ (by decide), Store.get_set_same]
  last := by
    rw [qsFresh_lgTotf]
    show (((q.cf.set 0 0).set 257 (BitVec.ofNat 16 (2 ^ lg.toNat))).get 257).toNat = 2 ^ lg.toNat
    rw [Store.get_set_same, BitVec.toNat_ofNat]
    exact Nat.mod_eq_of_lt (Nat.pow_lt_pow_right (by decide) lg.isLt)
  bucket_end := congrArg BitVec.toNat (Store.get_set_same q.search 128 256)

/-! ## A count (R225) -/

/-- Every total fits its array entry. -/
theorem Qs.total_le (q : Qs) : 2 ^ q.lgTotf.toNat ≤ 2 ^ 15 :=
  Nat.pow_le_pow_right (by decide) (Nat.le_of_lt_succ q.lgTotf.isLt)

namespace Qs.Good

variable {q : Qs} (h : q.Good)
include h

theorem rescaleFits : q.RescaleFits := h.rescale_range

/-- At the end of a rescale period everything has been counted. -/
theorem whole (hl : q.left = 0) (hn : q.nextleft = 0) : q.Whole where
  counted := h.counted
  total := by
    have hc := h.conserved
    rw [hl, hn, ← h.last] at hc
    simpa using hc.symm

/-- The second part of a rescale period begins (R216). -/
theorem secondPart (hl : q.left = 0) (hn : q.nextleft ≠ 0) :
    ({ q with incr := q.incr + 1, left := q.nextleft, nextleft := 0 } : Qs).Good := by
  have htotal := q.total_le
  have hc := h.conserved
  have hpos : 0 < q.nextleft.toNat := Nat.pos_of_ne_zero fun h0 => hn (BitVec.eq_of_toNat_eq h0)
  have hle : 1 * (q.incr.toNat + 1) ≤ q.nextleft.toNat * (q.incr.toNat + 1) := Nat.mul_le_mul_right _ hpos
  have hincr : (q.incr + 1).toNat = q.incr.toNat + 1 := by
    rw [BitVec.toNat_add]
    exact Nat.mod_eq_of_lt (by show q.incr.toNat + 1 < 2 ^ 16; omega)
  refine { h with conserved := ?_ }
  show q.collected + q.nextleft.toNat * (q.incr + 1).toNat + 0 * _ = _
  rw [hl] at hc
  rw [hincr, ← hc]
  simp

/-- The rescale at the end of a period keeps a model good, and leaves something to count (R216). -/
theorem doRescale (hl : q.left = 0) : (qsDoRescale q).Good ∧ (qsDoRescale q).left ≠ 0 := by
  unfold qsDoRescale
  split
  · next hn => exact ⟨h.secondPart hl hn, hn⟩
  · next hn =>
    exact qsRebuild_good (qsGrow_whole (h.whole hl (not_not.mp hn))) (qsGrow_sized h.sized) (qsGrow_rescaleFits h.rescaleFits)

/-- While a symbol is left to count, its count fits (R225). -/
theorem count_toNat (hl : q.left ≠ 0) {sym : Nat} (hsym : sym ≤ 256) :
    (q.newf.get sym + q.incr).toNat = q.freq sym + q.incr.toNat := by
  have htotal := q.total_le
  have hc := h.conserved
  have hfreq : q.freq sym ≤ q.collected := le_sumBelow q.freq (by omega)
  have hpos : 0 < q.left.toNat := Nat.pos_of_ne_zero fun h0 => hl (BitVec.eq_of_toNat_eq h0)
  have hle : 1 * q.incr.toNat ≤ q.left.toNat * q.incr.toNat := Nat.mul_le_mul_right _ hpos
  rw [BitVec.toNat_add]
  exact Nat.mod_eq_of_lt (by show q.freq sym + _ < 2 ^ 16; omega)

/-- Counting a symbol moves its increment from what is left to what is collected (R225). -/
theorem countOne (hl : q.left ≠ 0) {sym : Nat} (hsym : sym ≤ 256) :
    ({ q with left := q.left - 1, newf := q.newf.set sym (q.newf.get sym + q.incr) } : Qs).Good := by
  have hpos : 0 < q.left.toNat := Nat.pos_of_ne_zero fun h0 => hl (BitVec.eq_of_toNat_eq h0)
  have hleft : (q.left - 1).toNat = q.left.toNat - 1 := BitVec.toNat_sub_of_le (BitVec.le_def.mpr hpos)
  have hfreq : ∀ i, ((q.newf.set sym (q.newf.get sym + q.incr)).get i).toNat
      = q.freq i + if i = sym then q.incr.toNat else 0 := fun i => by
    rw [Store.get_set]
    split
    · next hi => rw [hi, h.count_toNat hl hsym]
    · rfl
  refine { h with
    counted := fun i hi => ?counted
    conserved := ?conserved }
  case counted =>
    rw [hfreq i]
    exact (h.counted i hi).trans (Nat.le_add_right _ _)
  case conserved =>
    have hraise := sumBelow_raise (n := 257) (Nat.lt_succ_of_le hsym) fun i _ => hfreq i
    have hsplit : q.left.toNat * q.incr.toNat = (q.left.toNat - 1) * q.incr.toNat + q.incr.toNat := by
      rw [← Nat.succ_mul, Nat.succ_eq_add_one, Nat.sub_add_cancel hpos]
    have hc := h.conserved
    rw [collected_eq, hsplit] at hc
    show sumBelow _ 257 + (q.left - 1).toNat * q.incr.toNat + q.nextleft.toNat * (q.incr.toNat + 1) = _
    rw [hraise, hleft, ← hc]
    omega

/-- QS_UPDATE keeps a model good (R225, R226). -/
theorem count {sym : Nat} (hsym : sym ≤ 256) : (qsCount q sym).Good := by
  rw [qsCount]
  split
  · next hl =>
    obtain ⟨hgood, hleft⟩ := h.doRescale hl
    exact hgood.countOne hleft hsym
  · next hl => exact h.countOne hl hsym

/-! ## The symbol of a target (R223) -/

/-- The search answers the symbol whose interval holds the target. -/
theorem symbol {t : Nat} (ht : t < 2 ^ q.lgTotf.toNat) : qsSymbol q t ≤ 256
    ∧ (q.cf.get (qsSymbol q t)).toNat ≤ t ∧ t < (q.cf.get (qsSymbol q t + 1)).toNat := by
  have hwidth : 0 < 2 ^ q.shift.toNat := Nat.two_pow_pos _
  have hmod := Nat.div_add_mod' t (2 ^ q.shift.toNat)
  have hlt := Nat.mod_lt t hwidth
  rw [h.sized.total_eq] at ht
  have hb : t / 2 ^ q.shift.toNat < 128 := Nat.div_lt_of_lt_mul (by rwa [Nat.mul_comm])
  unfold qsSymbol
  dsimp only
  rw [Nat.shiftRight_eq_div_pow]
  generalize t / 2 ^ q.shift.toNat = b at hmod hb ⊢
  have hnext : t < (b + 1) * 2 ^ q.shift.toNat := by rw [Nat.succ_mul]; omega
  obtain ⟨hlow, hfirst, -⟩ := h.bucket b hb
  have hlast : (q.search.get (b + 1)).toNat ≤ 256
      ∧ (b + 1) * 2 ^ q.shift.toNat ≤ (q.cf.get ((q.search.get (b + 1)).toNat + 1)).toNat := by
    rcases Nat.lt_or_eq_of_le (Nat.succ_le_of_lt hb) with hb' | hb'
    · obtain ⟨hhigh, -, hend⟩ := h.bucket (b + 1) hb'
      exact ⟨hhigh, Nat.le_of_lt hend⟩
    · rw [show b + 1 = 128 from hb', h.bucket_end]
      exact ⟨Nat.le_refl _, by rw [h.last, h.sized.total_eq]⟩
  obtain ⟨hhigh, hend⟩ := hlast
  have hlo : (q.cf.get (q.search.get b).toNat).toNat ≤ t := by omega
  have hhi : t < (q.cf.get ((q.search.get (b + 1)).toNat + 1)).toNat := by omega
  have horder : (q.search.get b).toNat < (q.search.get (b + 1)).toNat + 1 := by
    by_contra hcon
    have hrises : CfRises q.cf := h.rises
    have := hrises.mono (Nat.le_of_not_lt hcon) (by omega)
    omega
  obtain ⟨-, hle, hfound⟩ := searchFrom_spec (fuel := 17) hlo hhi horder (by omega)
  exact ⟨by omega, hfound⟩

end Qs.Good

end Sys2Proof.Machine
end

section
/-! PROOFS. The commands of unit QS (41_range_coder.md R220, R221, R223, R224, R225). -/

namespace Sys2Proof.Machine

/-! ## QS_INIT and QS_RESET (R220, R221) -/

/-- A command that answers a state with model `q` and nothing else changed. -/
theorem answers_model {i : Instr} {s : State} {q : Qs} {P : Qs → Prop} (he : exec i s = .next { s with qs := q }.finished)
    (hP : P q) : ∃ t, exec i s = .next t ∧ t = { s with qs := t.qs }.finished ∧ P t.qs := ⟨_, he, rfl, hP⟩

/-- No clause of a good model is about QS_VALID. -/
theorem Qs.Good.setValid {q : Qs} (h : q.Good) (b : Bool) : ({ q with valid := b } : Qs).Good := { h with }

theorem exec_qsInit_ok {s : State} {lg : BitVec 4} (hlg : 9 ≤ lg.toNat) (h1 : 1 ≤ (s.arg 0).toNat)
    (h2 : (s.arg 0).toNat ≤ 65535) : exec (.qsInit lg) s
      = .next { s with qs := { qsRestart (qsFresh s.qs lg.toNat (s.arg 0)) with valid := true } }.finished := by
  have htarget : (decide ((s.arg 0).toNat ≠ 0) && decide ((s.arg 0).toNat ≤ 65535)) = true := by simp; omega
  refine runCommand_complete (after := s) ?_ rfl
  rw [decide_eq_true hlg, htarget]
  rfl

theorem exec_qsInit_badTotal {s : State} {lg : BitVec 4} (hlg : lg.toNat < 9) :
    exec (.qsInit lg) s = .next (s.aborted 3 0 5 (lg.setWidth 32)) := by
  refine refused_of_check ⟨.badOperand, immWord lg⟩ (show execQsInit lg s = _ from rfl) ?_
  rw [decide_eq_false (Nat.not_le_of_lt hlg)]
  rfl

theorem exec_qsInit_badTarget {s : State} {lg : BitVec 4} (hlg : 9 ≤ lg.toNat) (h : s.arg 0 = 0 ∨ 65535 < (s.arg 0).toNat) :
    exec (.qsInit lg) s = .next (s.aborted 3 0 5 (s.arg 0)) := by
  have htarget : (decide ((s.arg 0).toNat ≠ 0) && decide ((s.arg 0).toNat ≤ 65535)) = false := by
    rcases h with h | h
    · rw [h]; rfl
    · simp [h]
  refine refused_of_check ⟨.badOperand, s.arg 0⟩ (show execQsInit lg s = _ from rfl) ?_
  rw [decide_eq_true hlg, htarget]
  rfl

theorem exec_qsReset_ok {s : State} (hv : s.qs.valid = true) :
    exec .qsReset s = .next { s with qs := qsRestart s.qs }.finished :=
  runCommand_complete (after := s) (requireReady_ok hv) rfl

/-- Settles O28: both commands rescale equal frequencies, QS_INIT for the total and target it has just set. -/
theorem qsInitAndResetBuildModel : Obligations.QsInitAndResetBuildModel := by
  intro s
  refine ⟨fun lg hlg h1 h2 => ?_, fun lg => exec_qsInit_badTotal, fun lg => exec_qsInit_badTarget, fun hv hg => ?_⟩
  · have hsized := qsFresh_sized s.qs hlg h1 h2
    have hfresh := qsRestart_valid_fresh hsized
    rw [qsFresh_lgTotf, qsFresh_target _ h2] at hfresh
    exact answers_model (P := fun q => q.Fresh lg.toNat (s.arg 0).toNat ∧ q.Good) (exec_qsInit_ok hlg h1 h2)
      ⟨hfresh, (qsRestart_good hsized).setValid true⟩
  · exact answers_model (P := fun q => q.Fresh s.qs.lgTotf.toNat s.qs.target.toNat ∧ q.Good) (exec_qsReset_ok hv)
      ⟨qsRestart_fresh hv hg, qsRestart_good hg.sized⟩

/-! ## QS_GETSYM (R223) -/

/-- Settles O29: the search answers the symbol whose interval holds the target (`Qs.Good.symbol`). -/
theorem qsGetsymFindsInterval : Obligations.QsGetsymFindsInterval := by
  intro s
  refine ⟨fun hv hg ht => ?found, fun hv ht => ?target, fun hv => ?unready⟩
  case found =>
    obtain ⟨hsym, hlo, hhi⟩ := hg.symbol ht
    refine ⟨_, hsym, hlo, hhi, runCommand_complete (after := s) ?_ rfl⟩
    rw [requireReady_ok hv, decide_eq_true (hg.last ▸ ht)]
    rfl
  case target =>
    refine refused_of_check ⟨.badOperand, s.arg 0⟩ (show execQsGetsym s = _ from rfl) ?_
    rw [requireReady_ok hv, decide_eq_false (Nat.not_lt_of_le ht)]
    rfl
  case unready =>
    refine refused_of_check ⟨.sequenceError, s.unitstat⟩ (show execQsGetsym s = _ from rfl) ?_
    rw [hv]
    rfl

/-! ## QS_GETFREQ and QS_UPDATE (R224, R225) -/

theorem checkSymbol_ok {s : State} (h : (s.arg 0).toNat ≤ 256) : s.checkSymbol = .ok () := require_ok.mpr (by simpa using h)

theorem checkModelAndSymbol_ok {s : State} (hv : s.qs.valid = true) (h : (s.arg 0).toNat ≤ 256) :
    (do s.requireReady s.qs.valid; s.checkSymbol : Run Unit) = .ok () := by
  rw [requireReady_ok hv, checkSymbol_ok h]
  rfl

theorem exec_qsUpdate_ok {s : State} (hv : s.qs.valid = true) (h : (s.arg 0).toNat ≤ 256) :
    exec .qsUpdate s = .next { s with qs := qsCount s.qs (s.arg 0).toNat }.finished :=
  runCommand_complete (after := s) (checkModelAndSymbol_ok hv h) rfl

/-- Within a part of a rescale period a symbol is counted (R225). -/
theorem qsCount_counts {q : Qs} (hl : q.left ≠ 0) (sym : Nat) :
    qsCount q sym = { q with left := q.left - 1, newf := q.newf.set sym (q.newf.get sym + q.incr) } := by
  rw [qsCount, if_neg hl]

/-- At the end of the first part the second begins with a larger increment (R216). -/
theorem qsCount_secondPart {q : Qs} (hl : q.left = 0) (hn : q.nextleft ≠ 0) (sym : Nat) : qsCount q sym = { q with
    left := q.nextleft - 1
    nextleft := 0
    incr := q.incr + 1
    newf := q.newf.set sym (q.newf.get sym + (q.incr + 1)) } := by
  rw [qsCount, if_pos hl, qsDoRescale, if_pos hn]

/-- At the end of a period the model is rescaled in full (R216). -/
theorem qsCount_rescale {q : Qs} (hl : q.left = 0) (hn : q.nextleft = 0) (sym : Nat) : qsCount q sym
    = { qsRebuild (qsGrow q) with
        left := (qsRebuild (qsGrow q)).left - 1
        newf := (qsRebuild (qsGrow q)).newf.set sym ((qsRebuild (qsGrow q)).newf.get sym + (qsRebuild (qsGrow q)).incr) } := by
  rw [qsCount, if_pos hl, qsDoRescale, if_neg (not_not.mpr hn)]

/-- What the full rescale of a model `q` at the end of its period leaves, `r` (R216). -/
structure Qs.Rescaled (q r : Qs) : Prop where
  good : r.Good
  open_period : r.left ≠ 0
  kept : r.valid = q.valid ∧ r.lgTotf = q.lgTotf ∧ r.shift = q.shift ∧ r.target = q.target
  cf : ∀ i ≤ 257, (r.cf.get i).toNat = sumBelow q.freq i
  freq : ∀ i ≤ 256, r.freq i = q.freq i / 2 ||| 1
  rescale : r.rescale.toNat = if q.rescale.toNat < q.target.toNat then min (2 * q.rescale.toNat) q.target.toNat
    else q.rescale.toNat
  incr : r.incr.toNat = ((q.cf.get 257).toNat - r.collected) / r.rescale.toNat
  nextleft : r.nextleft.toNat = ((q.cf.get 257).toNat - r.collected) % r.rescale.toNat
  left : r.left.toNat = r.rescale.toNat - r.nextleft.toNat

theorem Qs.Good.rescaled {q : Qs} (h : q.Good) (hl : q.left = 0) (hn : q.nextleft = 0) : q.Rescaled (qsRebuild (qsGrow q)) := by
  obtain ⟨gvalid, gcf, -, glg, gshift, gtarget, gr⟩ := qsGrow_fields q
  obtain ⟨rvalid, rlg, rshift, rtarget, rr, -⟩ := qsRebuild_fields (qsGrow q)
  have hwhole := qsGrow_whole (h.whole hl hn)
  have hsized := qsGrow_sized h.sized
  have hfits := qsGrow_rescaleFits h.rescaleFits
  have hfreq : (qsGrow q).freq = q.freq := by
    unfold Qs.freq
    rw [qsGrow_newf]
  obtain ⟨hgood, hopen⟩ := qsRebuild_good hwhole hsized hfits
  obtain ⟨hlow, hhigh⟩ := hfits
  obtain ⟨hincr, hnext, hleft⟩ := hwhole.rebuild_counts (by omega) (by omega)
  rw [gcf, ← rr] at hincr hnext
  rw [← rr] at hleft
  have htarget := q.target.isLt
  exact {
    good := hgood
    open_period := hopen
    kept := ⟨rvalid.trans gvalid, rlg.trans glg, rshift.trans gshift, rtarget.trans gtarget⟩
    cf := fun i hi => (qsRebuild_cf hwhole hsized hi).trans (by rw [hfreq])
    freq := fun i hi => (qsRebuild_freq _ hi).trans (by rw [hfreq])
    rescale := by
      rw [rr, gr]
      split
      · rw [BitVec.toNat_ofNat]
        exact Nat.mod_eq_of_lt (by omega)
      · rfl
    incr := hincr
    nextleft := hnext
    left := hleft }

/-- A model with the flag and the sizes of `q` differs from it in the arrays and the counters only. -/
theorem Qs.eq_with_arrays {q r : Qs}
    (h : r.valid = q.valid ∧ r.lgTotf = q.lgTotf ∧ r.shift = q.shift ∧ r.target = q.target) : r = { q with
      cf := r.cf
      newf := r.newf
      search := r.search
      rescale := r.rescale
      incr := r.incr
      left := r.left
      nextleft := r.nextleft } := by
  obtain ⟨hvalid, hlg, hshift, htarget⟩ := h
  rw [← hvalid, ← hlg, ← hshift, ← htarget]

/-- What the rescale keeps of the frequencies it halves (R216). -/
theorem Qs.Rescaled.collected_eq_halves {q r : Qs} (h : q.Rescaled r) :
    r.collected = ((List.range 257).map (fun i => (q.newf.get i).toNat / 2 ||| 1)).sum :=
  sumBelow_congr fun i hi => h.freq i (Nat.le_of_lt_succ hi)

/-- Settles O30: the frequency read out, and `qsCount` in each part of a rescale period. -/
theorem qsGetfreqAndUpdate : Obligations.QsGetfreqAndUpdate := by
  intro s hv hsym
  have hupdate := exec_qsUpdate_ok hv hsym
  refine ⟨runCommand_complete (after := s) (checkModelAndSymbol_ok hv hsym) rfl,
    fun hl => by rw [hupdate, qsCount_counts hl], fun hl hn => by rw [hupdate, qsCount_secondPart hl hn],
    fun hl hn hg => ?rescale⟩
  have hr := hg.rescaled hl hn
  rw [qsCount_rescale hl hn] at hupdate
  generalize qsRebuild (qsGrow s.qs) = r at hr hupdate
  obtain ⟨-, -, hshift, -⟩ := hr.kept
  refine ⟨_, hupdate, ?kept, hr.cf, fun i hi => ?counts, hr.rescale, fun missing hm => ?shared, fun b hb => ?buckets⟩
  case kept => exact congrArg (fun q => ({ s with qs := q } : State).finished) (Qs.eq_with_arrays hr.kept)
  case counts =>
    show ((r.newf.set (s.arg 0).toNat _).get i).toNat = _
    rw [Store.get_set]
    split
    · next h => rw [hr.good.count_toNat hr.open_period hsym, ← h, hr.freq i hi]; rfl
    · exact hr.freq i hi
  case shared =>
    have hpos : 1 ≤ r.left.toNat := Nat.pos_of_ne_zero fun h0 => hr.open_period (BitVec.eq_of_toNat_eq h0)
    have hleft : (r.left - 1).toNat = r.left.toNat - 1 := BitVec.toNat_sub_of_le (BitVec.le_def.mpr hpos)
    have hincr := hr.incr
    have hnext := hr.nextleft
    rw [← hr.collected_eq_halves] at hm
    rw [← hm] at hincr hnext
    refine ⟨hincr, hnext, ?_⟩
    show (r.left - 1).toNat + 1 = r.rescale.toNat - r.nextleft.toNat
    rw [hleft, Nat.sub_add_cancel hpos, hr.left]
  case buckets =>
    rw [← hshift]
    exact hr.good.bucket b hb

end Sys2Proof.Machine
end

section
/-! PROOFS. A step and the units it can change (70_reset_and_hazards.md R540 to R542): an engine step those of its command, a
host step all of them at a reset, else none. -/

namespace Sys2Proof.Machine

/-- The state of the units 1 to 9 (10_state.md section 4). -/
structure Units where
  lsb : Bool
  rc : Rc
  qs : Qs
  huf : Huf
  gol : Gol
  lz : Lz
  cam : Cam
  neko : Neko
  xf : Xf

def State.units (s : State) : Units := ⟨s.lsb, s.rc, s.qs, s.huf, s.gol, s.lz, s.cam, s.neko, s.xf⟩

/-- A write to a register leaves every unit as it is, or at its values after a reset. -/
theorem writeReg_units (s : State) (r : Reg) (v : Word) :
    (s.writeReg r v).units = s.units ∨ (s.writeReg r v).units = s.hwReset.units := by
  cases r with
  | ctrl =>
    simp only [State.writeReg]
    split
    · exact .inr rfl
    · exact .inl rfl
  | status =>
    refine .inl ?_
    show (s.clearStatus v).units = s.units
    rw [clearStatus_eq]
    rfl
  | cmd =>
    simp only [State.writeReg, State.issue]
    split
    · exact .inl rfl
    · exact .inl rfl
  | _ => exact .inl rfl

theorem store_units (s : State) (off : BitVec 8) (width : Width) (v : Word) :
    (s.store off width v).units = s.units ∨ (s.store off width v).units = s.hwReset.units := by
  unfold State.store
  split
  · split
    · exact writeReg_units s _ v
    · exact .inl rfl
  · exact .inl rfl

theorem load_units (s : State) (off : BitVec 8) (width : Width) : (s.load off width).units = s.units := by
  unfold State.load State.readReg
  split
  · split
    · split
      · rfl
      · rfl
    · rfl
  · rfl

theorem bufStore_units (s : State) (addr : Word) (width : Width) (v : Word) : (s.bufStore addr width v).units = s.units := by
  unfold State.bufStore
  split
  · rfl
  · split
    · rfl
    · rfl

theorem bufLoad_units (s : State) (addr : Word) (width : Width) : (s.bufLoad addr width).units = s.units := by
  unfold State.bufLoad
  split
  · rfl
  · split
    · rfl
    · rfl

/-- A host operation leaves every unit as it is, or at its values after a reset. -/
theorem hostOp_units (s : State) (op : HostOp) : (s.hostOp op).units = s.units ∨ (s.hostOp op).units = s.hwReset.units := by
  cases op with
  | st off width v => exact store_units s off width v
  | ld off width => exact .inl (load_units s off width)
  | bufPut addr width v => exact .inl (bufStore_units s addr width v)
  | bufGet addr width => exact .inl (bufLoad_units s addr width)
  | hwReset => exact .inr rfl

theorem hostStep_units (s : State) : s.hostStep.units = s.units ∨ s.hostStep.units = s.hwReset.units := by
  unfold State.hostStep
  split
  · exact .inl rfl
  · exact hostOp_units _ _

/-- Everything a step can do to the units: run a command on them, reset them all, or nothing. -/
theorem step_units {s t : State} (h : step s = .next t) :
    (∃ i turns, exec i { s with turns := turns } = .next t) ∨ t.units = s.units ∨ t.units = s.hwReset.units := by
  have hengine : ∀ turns, engineStep { s with turns := turns } = .next t →
      (∃ i turns, exec i { s with turns := turns } = .next t) ∨ t.units = s.units ∨ t.units = s.hwReset.units := by
    intro turns he
    unfold engineStep at he
    split at he
    · next i _ => exact .inl ⟨i, turns, he⟩
    · cases he
      exact .inr (.inl rfl)
  unfold step nextStep at h
  split at h
  · split at h
    · exact hengine s.turns h
    · cases h
      exact .inr (hostStep_units s)
  · cases h
    exact .inr (hostStep_units _)
  · next turns _ =>
    split at h
    · exact hengine turns h
    · cases h
      exact .inr (.inl rfl)

end Sys2Proof.Machine
end

section
/-! PROOFS. Every step keeps an initialised frequency model good (41_range_coder.md R226, R230). -/

namespace Sys2Proof.Machine

/-! ## The loop of RC_DECODE (R230) -/

/-- A quotient of more than `k` bits is cut to the highest of `k` bits (R207). -/
theorem capped_eq_min (t k : Nat) : (if t >>> k ≠ 0 then 2 ^ k - 1 else t) = min t (2 ^ k - 1) := by
  have hpos := Nat.two_pow_pos k
  simp only [Nat.shiftRight_eq_div_pow, ne_eq, Nat.div_eq_zero_iff]
  split <;> omega

/-- RC_CULSHIFT answers a target below `2^shift` (R207). -/
theorem rcCulshift_target_lt_pow {g : RcCfg} {e : Env} {sh t : Nat} {rc rc' : Rc} {io io' : Io}
    (h : rcCulshift g e sh rc io = .ok (t, rc', io')) : t < 2 ^ sh := by
  obtain ⟨⟨m, rc1, io1⟩, -, hrest⟩ := Run.bind_ok.mp h
  cases hrest
  have hpos := Nat.two_pow_pos sh
  rw [capped_eq_min]
  omega

/-- The loop counts only symbols there are. -/
theorem rcDecodeFrom_good {g : RcCfg} {e : Env} {fuel : Nat} {l l' : RcLoop} (hg : l.qs.Good)
    (h : rcDecodeFrom g e fuel l = .ok l') : l'.qs.Good := by
  induction fuel generalizing l with
  | zero => cases h
  | succ fuel ih =>
    rw [rcDecodeFrom] at h
    split at h
    · cases h
    · next hcul =>
      obtain ⟨hsym, -, -⟩ := hg.symbol (rcCulshift_target_lt_pow hcul)
      dsimp only at h
      split at h
      · cases h
        exact hg
      · split at h
        · cases h
        · exact ih (hg.count hsym) h

theorem rcDecodeBody_good {s u : State} (hg : s.qs.Good) (h : rcDecodeBody s = .ok u) : u.qs.Good := by
  unfold rcDecodeBody at h
  split at h
  · cases h
    exact hg
  · obtain ⟨⟨c, rc, io⟩, -, h⟩ := Run.bind_ok.mp h
    obtain ⟨l, hl, h⟩ := Run.bind_ok.mp h
    cases h
    have hgood := rcDecodeFrom_good (qsRestart_good hg.sized) hl
    exact hgood

/-! ## The commands that drive unit QS -/

/-- A command keeps the model good when its body does, and what its execution errors leave is good. -/
theorem qsInv_of_runCommand {s t after : State} {id : CmdId} {checks : Run Unit} {body : Run State} (hs : s.QsInv)
    (hbody : ∀ u, checks = .ok () → body = .ok u → u.QsInv) (hafter : checks = .ok () → after.QsInv)
    (h : runCommand s id checks body after = .next t) : t.QsInv := by
  rcases runCommand_cases h with ⟨r, -, rfl⟩ | ⟨u, hc, hb, rfl⟩ | ⟨r, hc, -, rfl⟩
  · exact hs
  · exact hbody u hc hb
  · exact hafter hc

section

variable {s t : State} (hs : s.QsInv)
include hs

/-- A command with checks whose answer is set. -/
theorem qsInv_of_answer {u : State} {id : CmdId} {checks : Run Unit} (hu : checks = .ok () → u.QsInv)
    (h : runCommand s id checks (.ok u) s = .next t) : t.QsInv :=
  qsInv_of_runCommand hs (fun u' hc hb => by cases hb; exact hu hc) (fun _ => hs) h

theorem srstUnit_qsInv {u : BitVec 4} (h : exec (.srstUnit u) s = .next t) : t.QsInv := by
  refine qsInv_of_answer hs (fun _ => ?_) h
  rw [srstBody_eq_withReset]
  show (if u.toNat = 3 ∨ u.toNat = 15 then Qs.atReset s.draws else s.qs).valid = true → Qs.Good (if _ then _ else _)
  split
  · nofun
  · exact hs

theorem rcDecode_qsInv (h : exec .rcDecode s = .next t) : t.QsInv := by
  refine qsInv_of_runCommand hs (fun u hc hb => ?_) (fun _ hv => absurd hv Bool.false_ne_true) h
  obtain ⟨_, hv, _⟩ := Run.bind_ok.mp hc
  exact fun _ => rcDecodeBody_good (s := s.markOverlap) (hs (require_ok.mp hv)) hb

theorem qsInit_qsInv {lg : BitVec 4} (h : exec (.qsInit lg) s = .next t) : t.QsInv := by
  refine qsInv_of_answer hs (fun hc => ?_) h
  obtain ⟨_, hlg, hc⟩ := Run.bind_ok.mp hc
  have hlg := require_ok.mp hlg
  have htarget := require_ok.mp hc
  simp only [Bool.and_eq_true, decide_eq_true_eq] at hlg htarget
  exact fun _ => (qsRestart_good (qsFresh_sized s.qs hlg (Nat.pos_of_ne_zero htarget.1) htarget.2)).setValid true

theorem qsReset_qsInv (h : exec .qsReset s = .next t) : t.QsInv :=
  qsInv_of_answer hs (fun hc _ => qsRestart_good (hs (require_ok.mp hc)).sized) h

theorem qsUpdate_qsInv (h : exec .qsUpdate s = .next t) : t.QsInv := by
  refine qsInv_of_answer hs (fun hc _ => ?_) h
  obtain ⟨_, hv, hsym⟩ := Run.bind_ok.mp hc
  exact (hs (require_ok.mp hv)).count (of_decide_eq_true (require_ok.mp hsym))

/-- A command that does not drive unit QS leaves its model. -/
theorem undriven_qsInv {i : Instr} (hi : i.drives 3 = false) (h : exec i s = .next t) : t.QsInv := by
  obtain ⟨u, hu, ht⟩ := exec_cases h
  have hqs : t.qs = s.qs := by
    rcases ht with rfl | ⟨r, -, rfl⟩
    · exact hu.qs hi
    · exact hu.qs hi
  unfold State.QsInv
  rw [hqs]
  exact hs

/-- Every command keeps an initialised model good. -/
theorem exec_qsInv {i : Instr} (h : exec i s = .next t) : t.QsInv := by
  cases i with
  | srstUnit u => exact srstUnit_qsInv hs h
  | rcDecode => exact rcDecode_qsInv hs h
  | qsInit lg => exact qsInit_qsInv hs h
  | qsReset => exact qsReset_qsInv hs h
  | qsGetsym => exact qsInv_of_answer hs (fun _ => by exact hs) h
  | qsGetfreq => exact qsInv_of_answer hs (fun _ => by exact hs) h
  | qsUpdate => exact qsUpdate_qsInv hs h
  | _ => exact undriven_qsInv hs rfl h

end

/-- Settles O57: a command keeps the model good (`exec_qsInv`); a host step leaves it or resets it. -/
theorem stepKeepsQsModel : Obligations.StepKeepsQsModel := by
  intro s t hs h
  rcases step_units h with ⟨i, turns, he⟩ | hkept | hreset
  · exact exec_qsInv (s := { s with turns := turns }) hs he
  · have hqs : t.qs = s.qs := congrArg Units.qs hkept
    unfold State.QsInv
    rw [hqs]
    exact hs
  · have hqs : t.qs = s.hwReset.qs := congrArg Units.qs hreset
    unfold State.QsInv
    rw [hqs]
    exact nofun

end Sys2Proof.Machine
end

section
/-! PROOFS. The commands of unit RC but RC_DECODE (41_range_coder.md R202 to R208). -/

namespace Sys2Proof.Machine

/-! ## RC_START (R204, R205) -/

theorem alignUp_nextByte (s : State) : alignUp s.src.pos.toNat = 8 * s.nextByte := Nat.mul_comm ..

/-- `RcStart()` on two known bytes. -/
theorem rcStartup_bytes {s : State} {c b : Byte} (h : s.holdsBytes s.nextByte [c, b]) : rcStartup s.rcCfg s.env s.io = .ok
    (c, ⟨(b >>> (8 - s.cfg.rcExtraBits)).setWidth 32, BitVec.ofNat 32 (2 ^ s.cfg.rcExtraBits), 0, b, .decoding⟩,
      { s.io with pos := 8 * s.nextByte + 16 }) := by
  obtain ⟨hlen, hbyte⟩ := h
  have hlen : s.nextByte + 2 ≤ s.env.srcLen := hlen
  have hfirst := srcByte_at (io := s.io) (alignUp_nextByte s) (show s.nextByte < s.env.srcLen by omega)
  have hsecond := srcByte_at (io := { s.io with pos := 8 * (s.nextByte + 1) }) (q := s.nextByte + 1) (alignUp_of_mod (by simp))
    (show s.nextByte + 1 < s.env.srcLen by omega)
  have hc : s.io.buf.get (s.env.srcBase + s.nextByte) = c := hbyte 0 (by simp)
  have hb : s.io.buf.get (s.env.srcBase + (s.nextByte + 1)) = b := hbyte 1 (by simp)
  rw [hc] at hfirst
  rw [hb] at hsecond
  rw [rcStartup, hfirst]
  simp only [Run.ok_bind, hsecond]
  rfl

/-- Settles O24: the two bytes read (`rcStartup_bytes`) in a command whose check passes. -/
theorem rcStartPrimes : Obligations.RcStartPrimes := by
  intro s c b hs h
  refine runCommand_complete (after := s.afterRcError) (checkSrc_ok hs) ?_
  rw [rcStartup_bytes h]
  rfl

/-! ## The range under RcNormalize (R202, R203) -/

/-- A decoder that needs a byte has a range that the next byte does not carry out of 32 bits (R202). -/
theorem range_of_rcNeed (s : State) {rc : Rc} (h : rcNeed s.rcCfg rc = true) : rc.range.toNat < 2 ^ 24 := by
  have hsel := s.cfg.rcSel.isLt
  unfold rcNeed State.rcCfg Config.Params.rcBottom at h
  by_cases hle : s.cfg.rcNormLe = true
  · have hbottom : 2 ^ (16 + min s.cfg.rcSel.val 7) ≤ 2 ^ 23 := Nat.pow_le_pow_right (by decide) (by omega)
    simp only [if_pos hle, decide_eq_true_eq] at h
    omega
  · have hbottom : 2 ^ (16 + s.cfg.rcSel.val) ≤ 2 ^ 24 := Nat.pow_le_pow_right (by decide) (by omega)
    simp only [if_neg hle, decide_eq_true_eq] at h
    omega

theorem rcAfter_succ (s : State) (n : Nat) : s.rcAfter (n + 1)
    = rcShift s.rcCfg (s.rcAfter n) (s.buf.get (s.src.base.toNat + s.nextByte + n)) := rfl

theorem rcAfter_st (s : State) (n : Nat) : (s.rcAfter n).st = s.rc.st := by
  induction n with
  | zero => rfl
  | succ n ih => exact ih

/-- The first `n` iterations of `RcNormalize()` all need their byte. -/
def State.RcNeeds (s : State) (n : Nat) : Prop := ∀ m < n, rcNeed s.rcCfg (s.rcAfter m) = true

namespace State.RcNeeds

variable {s : State} {n : Nat}

theorem pred (h : s.RcNeeds (n + 1)) : s.RcNeeds n := fun m hm => h m (by omega)

/-- Each iteration multiplies the range by 256. -/
theorem range (h : s.RcNeeds n) : (s.rcAfter n).range.toNat = s.rc.range.toNat * 256 ^ n := by
  induction n with
  | zero => exact (Nat.mul_one _).symm
  | succ n ih =>
    have hlt := range_of_rcNeed s (h n (Nat.lt_succ_self n))
    have hshift : ((s.rcAfter n).range <<< 8).toNat = (s.rcAfter n).range.toNat * 256 := by
      rw [BitVec.toNat_shiftLeft, Nat.shiftLeft_eq]
      exact Nat.mod_eq_of_lt (by omega)
    rw [Nat.pow_succ, ← Nat.mul_assoc, ← ih h.pred]
    exact hshift

/-- From a nonzero range the first three iterations leave no need (R202). -/
theorem lt_four (h : s.RcNeeds n) (hr : s.rc.range ≠ 0) : n < 4 := by
  by_contra hn
  have hneeds : s.RcNeeds 3 := fun m hm => h m (by omega)
  have hlt := range_of_rcNeed s (h 3 (by omega))
  have hpos : 0 < s.rc.range.toNat := Nat.pos_of_ne_zero fun h0 => hr (BitVec.eq_of_toNat_eq h0)
  rw [hneeds.range] at hlt
  omega

/-- A range of 0 stays 0 and needs every byte. -/
theorem of_range_zero (hr : s.rc.range = 0) (n : Nat) : s.RcNeeds n := by
  intro m _
  have hzero : (s.rcAfter m).range = 0 := by
    induction m with
    | zero => exact hr
    | succ m ih =>
      show (s.rcAfter m).range <<< 8 = 0
      rw [ih (by omega)]
      rfl
  by_contra hneed
  have := range_of_not_rcNeed s (Bool.eq_false_of_not_eq_true hneed)
  rw [hzero] at this
  exact absurd this (by decide)

end State.RcNeeds

/-- From a nonzero range the loop ends, after at most three iterations (R202). -/
theorem exists_rcNeeds_end {s : State} (hr : s.rc.range ≠ 0) :
    ∃ n ≤ 3, rcNeed s.rcCfg (s.rcAfter n) = false ∧ s.RcNeeds n := by
  have hex : ∃ n, rcNeed s.rcCfg (s.rcAfter n) = false := by
    by_contra hnone
    have hall : s.RcNeeds 4 := fun m _ => by simpa using not_exists.mp hnone m
    exact absurd (hall.lt_four hr) (by decide)
  have hmin : s.RcNeeds (Nat.find hex) := fun m hm => by simpa using Nat.find_min hex hm
  exact ⟨_, Nat.le_of_lt_succ (hmin.lt_four hr), Nat.find_spec hex, hmin⟩

/-! ## The loop over the source (R203) -/

/-- The source cursor after `n` iterations of `RcNormalize()`. -/
def State.rcCursor (s : State) (n : Nat) : Nat := if n = 0 then s.src.pos.toNat else 8 * (s.nextByte + n)

theorem rcCursor_succ (s : State) (n : Nat) : s.rcCursor (n + 1) = 8 * (s.nextByte + n + 1) := if_neg (Nat.succ_ne_zero n)

theorem alignUp_rcCursor (s : State) (n : Nat) : alignUp (s.rcCursor n) = 8 * (s.nextByte + n) := by
  cases n with
  | zero => exact alignUp_nextByte s
  | succ n => rw [rcCursor_succ]; exact alignUp_of_mod (by simp)

/-- What `RcNormalize()` carries of the source after `n` iterations. -/
def State.rcIo (s : State) (n : Nat) : Io := { s.io with pos := s.rcCursor n }

section

variable {s : State} {n : Nat} (h : s.RcNeeds n)
include h

/-- `n` iterations of the loop on bytes the source holds. -/
theorem rcNormalizeFrom_rcAfter (hlen : s.nextByte + n ≤ s.src.len.toNat) (fuel : Nat) :
    rcNormalizeFrom s.rcCfg s.env (fuel + n) 0 s.rc s.io = rcNormalizeFrom s.rcCfg s.env fuel n (s.rcAfter n) (s.rcIo n) := by
  induction n generalizing fuel with
  | zero => rfl
  | succ n ih =>
    have hbyte := srcByte_at (e := s.env) (io := s.rcIo n) (alignUp_rcCursor s n) (show s.nextByte + n < s.src.len.toNat by omega)
    have hio : { s.rcIo n with pos := 8 * (s.nextByte + n + 1) } = s.rcIo (n + 1) := by
      rw [State.rcIo, State.rcIo, rcCursor_succ]
    rw [show fuel + (n + 1) = fuel + 1 + n by omega, ih h.pred (by omega), rcNormalizeFrom, if_pos (h n (Nat.lt_succ_self n)),
      hbyte]
    dsimp only
    rw [hio, rcAfter_succ, Nat.add_assoc s.src.base.toNat]
    rfl

/-- Where the source holds the bytes of the iterations that need one, the loop ends with the decoder they leave. -/
theorem rcNormalize_ends (hend : rcNeed s.rcCfg (s.rcAfter n) = false) (hlen : s.nextByte + n ≤ s.src.len.toNat) :
    rcNormalize s.rcCfg s.env s.rc s.io = .ok (n, s.rcAfter n, s.rcIo n) := by
  have hfuel : s.env.srcLen + 1 = s.src.len.toNat - n + 1 + n := by
    show s.src.len.toNat + 1 = _
    omega
  rw [rcNormalize, hfuel, rcNormalizeFrom_rcAfter h hlen, rcNormalizeFrom, hend]
  rfl

/-- Where the source ends before the loop does, the loop raises TruncatedInput at the end of the source (R506). -/
theorem rcNormalize_short (hneed : rcNeed s.rcCfg (s.rcAfter n) = true) (hlen : s.nextByte + n = s.src.len.toNat) :
    rcNormalize s.rcCfg s.env s.rc s.io = .error ⟨.truncatedInput, wordOf (8 * s.src.len.toNat)⟩ := by
  have hfuel : s.env.srcLen + 1 = s.src.len.toNat - n + 1 + n := by
    show s.src.len.toNat + 1 = _
    omega
  have hcursor : alignUp (s.rcIo n).pos = 8 * s.src.len.toNat := (alignUp_rcCursor s n).trans (by rw [hlen])
  rw [rcNormalize, hfuel, rcNormalizeFrom_rcAfter h (Nat.le_of_eq hlen), rcNormalizeFrom, hneed,
    srcByte_end (Nat.le_of_eq hcursor.symm), hcursor]
  rfl

end

/-! ## RC_NORMALIZE and RC_CULSHIFT (R206, R207) -/

theorem rcNormalize_checks {s : State} (hd : s.rc.st = .decoding) (hs : s.srcInBounds = true) :
    (do s.requireDecoding; s.checkSrc : Run Unit) = .ok () := by
  rw [requireDecoding_ok hd, checkSrc_ok hs]
  rfl

theorem rcCulshift_checks {s : State} {shift : BitVec 5} (hd : s.rc.st = .decoding) (hs : s.srcInBounds = true)
    (h1 : 1 ≤ shift.toNat) (h16 : shift.toNat ≤ 16) : (do
      s.requireDecoding
      require (decide (1 ≤ shift.toNat) && decide (shift.toNat ≤ 16)) .badOperand (immWord shift)
      s.checkSrc : Run Unit) = .ok () := by
  rw [requireDecoding_ok hd, checkSrc_ok hs, decide_eq_true h1, decide_eq_true h16]
  rfl

section

variable {s : State} {n : Nat} (hd : s.rc.st = .decoding) (hs : s.srcInBounds = true) (h : s.RcNeeds n)
include hd hs h

theorem exec_rcNormalize_ends (hend : rcNeed s.rcCfg (s.rcAfter n) = false) (hlen : s.nextByte + n ≤ s.src.len.toNat) :
    exec .rcNormalize s
      = .next ((({ s with rc := s.rcAfter n }.atBit (s.rcCursor n)).setResult (BitVec.ofNat 32 n)).finished) := by
  refine runCommand_complete (after := s.afterRcError) (rcNormalize_checks hd hs) ?_
  rw [rcNormalize_ends h hend hlen]
  rfl

theorem exec_rcCulshift_ends (hend : rcNeed s.rcCfg (s.rcAfter n) = false) (hlen : s.nextByte + n ≤ s.src.len.toNat)
    {shift : BitVec 5} (h1 : 1 ≤ shift.toNat) (h16 : shift.toNat ≤ 16) :
    exec (.rcCulshift shift) s = .next ((({ s with rc := { s.rcAfter n with
      help := (s.rcAfter n).range >>> shift.toNat } }.atBit (s.rcCursor n)).setResult (BitVec.ofNat 32
        (min ((s.rcAfter n).low.toNat / ((s.rcAfter n).range.toNat / 2 ^ shift.toNat)) (2 ^ shift.toNat - 1)))).finished) := by
  refine runCommand_complete (after := s.afterRcError) (rcCulshift_checks hd hs h1 h16) ?_
  rw [← Nat.shiftRight_eq_div_pow, ← BitVec.toNat_ushiftRight, ← capped_eq_min, rcCulshift, rcNormalize_ends h hend hlen]
  rfl

/-- A source that ends before the loop does (R506). -/
theorem rcLoop_short (hneed : rcNeed s.rcCfg (s.rcAfter n) = true) (hlen : s.nextByte + n = s.src.len.toNat) :
    raises .rcNormalize s 2 3 2 (BitVec.ofNat 32 (8 * s.src.len.toNat))
    ∧ ∀ shift : BitVec 5, 1 ≤ shift.toNat → shift.toNat ≤ 16 →
      raises (.rcCulshift shift) s 2 1 2 (BitVec.ofNat 32 (8 * s.src.len.toNat)) := by
  have hshort := rcNormalize_short h hneed hlen
  refine ⟨?_, fun shift h1 h16 => ?_⟩
  · exact raises_of_body (r := ⟨.truncatedInput, wordOf (8 * s.src.len.toNat)⟩) (by decide) (by decide) rfl
      (rcNormalize_checks hd hs) (by rw [hshort]; rfl)
  · exact raises_of_body (r := ⟨.truncatedInput, wordOf (8 * s.src.len.toNat)⟩) (by decide) (by decide) rfl
      (rcCulshift_checks hd hs h1 h16) (by rw [rcCulshift, hshort]; rfl)

end

/-- Settles O25: the loop ends by the growth of the range (`State.RcNeeds.range`), and runs as far as the source does. -/
theorem rcNormalizeAndCulshift : Obligations.RcNormalizeAndCulshift := by
  intro s hd hs
  refine ⟨fun hr => ?ends, fun n hend h hlen => ⟨exec_rcNormalize_ends hd hs h hend hlen, fun shift h1 h16 =>
    ⟨fun h0 => ?help, exec_rcCulshift_ends hd hs h hend hlen h1 h16⟩⟩, fun hr => ?zero⟩
  case ends =>
    obtain ⟨n, hn, hend, h⟩ := exists_rcNeeds_end hr
    exact ⟨n, hn, h.range, hend, h⟩
  case help =>
    have hrange := range_of_not_rcNeed s hend
    have hhelp := congrArg BitVec.toNat h0
    rw [BitVec.toNat_ushiftRight, Nat.shiftRight_eq_div_pow] at hhelp
    have hpow : 2 ^ shift.toNat ≤ 2 ^ 16 := Nat.pow_le_pow_right (by decide) h16
    exact absurd hhelp (Nat.ne_of_gt (Nat.div_pos (hpow.trans hrange) (Nat.two_pow_pos _)))
  case zero =>
    have hnext : s.nextByte ≤ s.src.len.toNat := by
      have := (srcInBounds_iff.mp hs).2
      unfold State.nextByte
      omega
    have hneeds := State.RcNeeds.of_range_zero hr (s.src.len.toNat - s.nextByte + 1)
    exact rcLoop_short hd hs hneeds.pred (hneeds _ (Nat.lt_succ_self _)) (Nat.add_sub_cancel' hnext)

/-! ## RC_UPDATE (R208) -/

/-- The triples RC_UPDATE takes, sums without wrap-around. -/
def rcTripleOk (sy lt tot : Word) : Prop := sy ≠ 0 ∧ tot.toNat ≤ 65536 ∧ lt.toNat + sy.toNat ≤ tot.toNat

theorem rcTriple_check {sy lt tot : Word} : (decide (sy.toNat ≠ 0) && decide (tot.toNat ≤ 65536)
    && decide (lt.toNat + sy.toNat ≤ tot.toNat)) = true ↔ rcTripleOk sy lt tot := by
  simp [rcTripleOk, BitVec.toNat_eq, and_assoc]

theorem exec_rcUpdate_eq (s : State) : exec .rcUpdate s = runCommand s (Instr.cmdId .rcUpdate)
    (do s.requireDecoding
        require (decide ((s.arg 0).toNat ≠ 0) && decide ((s.arg 2).toNat ≤ 65536)
          && decide ((s.arg 1).toNat + (s.arg 0).toNat ≤ (s.arg 2).toNat)) .badOperand (s.arg 0))
    (.ok { s with rc := rcNarrow s.rc (s.arg 0).toNat (s.arg 1).toNat (s.arg 2).toNat }) s := rfl

/-- Settles O26: the state check, the triple check, the narrowed interval. -/
theorem rcUpdateNarrows : Obligations.RcUpdateNarrows := by
  refine ⟨by decide, fun s => ⟨fun hd => ?state, fun hd hbad => ?triple, fun hd hsy htot hsum => ?narrow⟩⟩
  case state =>
    refine refused_of_check ⟨.sequenceError, s.unitstat⟩ (exec_rcUpdate_eq s) ?_
    rw [State.requireDecoding, beq_false_of_ne hd]
    rfl
  case triple =>
    have hrefused : ¬ rcTripleOk (s.arg 0) (s.arg 1) (s.arg 2) := by
      rintro ⟨hsy, htot, hsum⟩
      rcases hbad with h | h | h
      · exact hsy h
      · omega
      · omega
    refine refused_of_check ⟨.badOperand, s.arg 0⟩ (exec_rcUpdate_eq s) ?_
    rw [requireDecoding_ok hd, Bool.eq_false_of_not_eq_true (mt rcTriple_check.mp hrefused)]
    rfl
  case narrow =>
    refine (exec_rcUpdate_eq s).trans ((runCommand_complete ?_ rfl).trans ?_)
    · rw [requireDecoding_ok hd, rcTriple_check.mpr ⟨hsy, htot, hsum⟩]
      rfl
    · simp only [rcNarrow, BitVec.ofNat_toNat, BitVec.setWidth_eq]
      rfl

end Sys2Proof.Machine
end

section
/-! PROOFS. What the operations on a Huffman tree leave at each node (42_huffman.md R263, R264), and the invariants of R285 in two
parts: how the nodes are linked, and how they weigh. -/

namespace Sys2Proof.Machine

theorem hufRoot_eq : hufRoot = 0x200 := rfl

theorem nodeRef_toNat {i : Nat} (h : i ≤ hufRoot) : (nodeRef i).toNat = i := by
  have := hufRoot_eq
  simp only [nodeRef, BitVec.toNat_ofNat]
  omega

/-! ## One node after an operation -/

namespace Tree

variable (t : Tree)

/-- The code and the weight of node `i`. -/
def node (i : Nat) : BitVec 32 × Nat := (t.c.get i, t.weight i)

/-- `Fix(pos)` points the children of an internal node at it. -/
theorem fix_p_get (pos i : Nat) : (t.fix pos).p.get i =
    if (t.c.get pos).msb = false ∧ (i = t.child pos ∨ i = t.child pos + 1) then nodeRef pos else t.p.get i := by
  cases hm : (t.c.get pos).msb with
  | false =>
    rw [fix_inner t (by simpa [isLeafCode] using hm)]
    simp only [Store.get_set]
    by_cases h0 : i = t.child pos <;> by_cases h1 : i = t.child pos + 1 <;> simp [h0, h1]
  | true =>
    have hleaf : isLeafCode (t.c.get pos) = true := hm
    by_cases he : t.c.get pos = hufEscape
    · rw [fix_escape t he]; simp
    · rw [fix_leaf t hleaf he]; simp

/-- `Fix(pos)` points ESC at the escape leaf. -/
theorem fix_esc (pos : Nat) : (t.fix pos).esc = if t.c.get pos = hufEscape then nodeRef pos else t.esc := by
  by_cases he : t.c.get pos = hufEscape
  · rw [fix_escape t he, if_pos he]
  · rw [if_neg he]
    cases hm : (t.c.get pos).msb with
    | false => rw [fix_inner t (by simpa [isLeafCode] using hm)]
    | true => rw [fix_leaf t hm he]

@[simp] theorem fix_child (pos i : Nat) : (t.fix pos).child i = t.child i := by simp [child]

@[simp] theorem fix_node (pos i : Nat) : (t.fix pos).node i = t.node i := by simp [node, weight]

theorem node_eq_iff {t u : Tree} {i j : Nat} : t.node i = u.node j ↔ t.c.get i = u.c.get j ∧ t.w.get i = u.w.get j := by
  simp [node, weight, BitVec.toNat_inj]

theorem moveNode_node (dest src i : Nat) : (t.moveNode dest src).node i = if i = dest then t.node src else t.node i := by
  split
  · next h => subst h; simp [node_eq_iff]
  · next h => simp [node_eq_iff, Store.get_set, h]

theorem setParent_node {w : BitVec 16} (k c i : Nat) :
    (t.setParent k w c).node i = if i = k then (BitVec.ofNat 32 c, w.toNat) else t.node i := by
  split
  · next h => subst h; simp [node, weight]
  · next h => simp [node_eq_iff, Store.get_set, h]

/-- The exchange of `Normalize` (R264): nodes `e` and `sw` swapped and the references to them repaired. -/
def exchange (e sw : Nat) : Tree := ((t.swapNodes e sw).fix sw).fix e

@[simp] theorem exchange_tp (e sw : Nat) : (t.exchange e sw).tp = t.tp := by simp [exchange]

theorem swapNodes_node (a b i : Nat) : (t.swapNodes a b).node i = t.node (Equiv.swap a b i) := by
  simp only [node_eq_iff, swapNodes_c, swapNodes_w, Store.get_set, Equiv.swap_apply_def]
  split_ifs with h1 h2
  · simp [← h1, ← h2]
  · simp
  · simp
  · simp

theorem swapNodes_c_get (a b i : Nat) : (t.swapNodes a b).c.get i = t.c.get (Equiv.swap a b i) :=
  congrArg Prod.fst (t.swapNodes_node a b i)

theorem swapNodes_child (a b i : Nat) : (t.swapNodes a b).child i = t.child (Equiv.swap a b i) :=
  congrArg BitVec.toNat (t.swapNodes_c_get a b i)

theorem exchange_node (e sw i : Nat) : (t.exchange e sw).node i = t.node (Equiv.swap e sw i) := by
  rw [exchange, fix_node, fix_node, swapNodes_node]

theorem exchange_c_get (e sw i : Nat) : (t.exchange e sw).c.get i = t.c.get (Equiv.swap e sw i) :=
  congrArg Prod.fst (t.exchange_node e sw i)

theorem exchange_weight (e sw i : Nat) : (t.exchange e sw).weight i = t.weight (Equiv.swap e sw i) :=
  congrArg Prod.snd (t.exchange_node e sw i)

theorem exchange_child (e sw i : Nat) : (t.exchange e sw).child i = t.child (Equiv.swap e sw i) :=
  congrArg BitVec.toNat (t.exchange_c_get e sw i)

theorem recount_weight (q i : Nat) : (t.recount q).weight i =
    if i = q then (t.weight (t.child q) + t.weight (t.child q + 1)) % 2 ^ 16 else t.weight i := by
  split
  · next h => subst h; simp [weight]
  · next h => simp [weight, Store.get_set, h]

end Tree

/-! ## The links of a tree (R285 items 1, 4 and 5) -/

/-- The part of `Tree.Filled` that is not about weights. -/
structure Tree.Linked (t : Tree) : Prop where
  low : t.tp.toNat ≤ 0x1FE ∧ t.tp.toNat % 2 = 0
  root : (t.c.get hufRoot).msb = false
  leaf : ∀ q, t.tp.toNat ≤ q → q < hufRoot → (t.c.get q).msb = true → isLeaf (t.c.get q)
  child : ∀ q, t.tp.toNat ≤ q → q ≤ hufRoot → (t.c.get q).msb = false →
    t.tp.toNat ≤ t.child q ∧ t.child q % 2 = 0 ∧ t.child q + 1 < q
  ofChild : ∀ q, t.tp.toNat ≤ q → q ≤ hufRoot → (t.c.get q).msb = false →
    (t.p.get (t.child q)).toNat = q ∧ (t.p.get (t.child q + 1)).toNat = q
  parent : ∀ i, t.tp.toNat ≤ i → i < hufRoot → i < (t.p.get i).toNat ∧ (t.p.get i).toNat ≤ hufRoot
    ∧ (t.c.get (t.p.get i).toNat).msb = false ∧ t.child (t.p.get i).toNat = i - i % 2
  escape : t.tp.toNat ≤ t.esc.toNat ∧ t.esc.toNat < hufRoot ∧ t.c.get t.esc.toNat = hufEscape
  oneEscape : ∀ i, t.tp.toNat ≤ i → i < hufRoot → t.c.get i = hufEscape → i = t.esc.toNat

namespace Tree.Linked

variable {t : Tree} (h : t.Linked)
include h

theorem tp_lt : t.tp.toNat < hufRoot := by
  have := h.low
  have := hufRoot_eq
  omega

/-- The parent of a node, by its P or by the parent's C. -/
theorem parent_eq_iff {q i : Nat} (hq : t.tp.toNat ≤ q ∧ q ≤ hufRoot) (hi : t.tp.toNat ≤ i ∧ i < hufRoot) :
    (t.p.get i).toNat = q ↔ (t.c.get q).msb = false ∧ (i = t.child q ∨ i = t.child q + 1) := by
  constructor
  · rintro rfl
    obtain ⟨-, -, hm, hc⟩ := h.parent i hi.1 hi.2
    exact ⟨hm, by omega⟩
  · rintro ⟨hm, rfl | rfl⟩
    · exact (h.ofChild q hq.1 hq.2 hm).1
    · exact (h.ofChild q hq.1 hq.2 hm).2

/-- The node below the root is the root's second child. -/
theorem root_child : t.child hufRoot + 1 = hufRoot - 1 := by
  have htp := h.tp_lt
  have := hufRoot_eq
  obtain ⟨hlt, hle, -, hc⟩ := h.parent (hufRoot - 1) (by omega) (by omega)
  rw [show (t.p.get (hufRoot - 1)).toNat = hufRoot by omega] at hc
  omega

end Tree.Linked

/-! ## The weights of a tree (R285 items 1 to 3) -/

/-- The weight the parent of node `i` counts while node `up` has grown by one. -/
def Tree.counts (t : Tree) (up i : Nat) : Nat := if i = up then t.weight i - 1 else t.weight i

/-- The weights of a tree in which node `up` has grown by one and nothing above it knows (R264). -/
structure Tree.Weighed (t : Tree) (up : Nat) : Prop where
  counted : 1 ≤ t.counts up t.tp.toNat
  rises : ∀ i, t.tp.toNat ≤ i → i < hufRoot → t.counts up i ≤ t.counts up (i + 1)
  ceiling : t.counts up hufRoot ≤ hufMax
  sum : ∀ q, t.tp.toNat ≤ q → q ≤ hufRoot → (t.c.get q).msb = false →
    t.weight q = t.counts up (t.child q) + t.counts up (t.child q + 1)

theorem Tree.counts_of_ne (t : Tree) {up i : Nat} (h : i ≠ up) : t.counts up i = t.weight i := if_neg h

theorem Tree.counts_self (t : Tree) (up : Nat) : t.counts up up = t.weight up - 1 := if_pos rfl

namespace Tree.Weighed

variable {t : Tree} {up : Nat} (h : t.Weighed up)
include h

theorem mono {i j : Nat} (hi : t.tp.toNat ≤ i) (hij : i ≤ j) (hj : j ≤ hufRoot) : t.counts up i ≤ t.counts up j := by
  induction j, hij using Nat.le_induction with
  | base => exact le_rfl
  | succ j hij ih => exact (ih (by omega)).trans (h.rises j (by omega) (by omega))

theorem pos {i : Nat} (hi : t.tp.toNat ≤ i) (hi' : i ≤ hufRoot) : 1 ≤ t.counts up i := h.counted.trans (h.mono le_rfl hi hi')

theorem le_max {i : Nat} (hi : t.tp.toNat ≤ i) (hi' : i ≤ hufRoot) : t.counts up i ≤ hufMax :=
  (h.mono hi hi' le_rfl).trans h.ceiling

/-- The node that has grown. -/
theorem weight_up (hu : t.tp.toNat ≤ up) (hu' : up ≤ hufRoot) : t.weight up = t.counts up up + 1 := by
  have := h.pos hu hu'
  rw [counts_self] at this ⊢
  omega

theorem weight_le (i : Nat) (hi : t.tp.toNat ≤ i) (hi' : i ≤ hufRoot) : t.weight i ≤ hufMax + 1 := by
  have := h.le_max hi hi'
  unfold counts at this
  split at this <;> omega

end Tree.Weighed

/-! ## The invariants of R285 -/

section

variable {t : Tree} (h : t.Filled)
include h

theorem Tree.Filled.linked : t.Linked where
  low := h.low
  root := h.root
  leaf := h.leaf
  child q h1 h2 h3 := by
    obtain ⟨ha, hb, hlt, -⟩ := h.inner q h1 h2 h3
    exact ⟨ha, hb, hlt⟩
  ofChild q h1 h2 h3 := by
    obtain ⟨-, -, -, -, hp, hp'⟩ := h.inner q h1 h2 h3
    exact ⟨hp, hp'⟩
  parent := h.parent
  escape := h.escape
  oneEscape := h.oneEscape

/-- The root weighs more than the node below it, its second child. -/
theorem Tree.Filled.weight_below_root : t.weight (hufRoot - 1) < t.weight hufRoot := by
  have htp := h.linked.tp_lt
  have hc := h.linked.root_child
  obtain ⟨hlo, -, hlt, hsum, -⟩ := h.inner hufRoot htp.le le_rfl h.root
  have hmono : ∀ i, t.tp.toNat ≤ i → i ≤ hufRoot → t.weight t.tp.toNat ≤ t.weight i := fun i hi => by
    induction i, hi using Nat.le_induction with
    | base => exact fun _ => le_rfl
    | succ i hi ih => exact fun hle => (ih (by omega)).trans (h.rises i hi (by omega))
  have hfirst := hmono _ hlo (by omega)
  have hpos := h.counted
  rw [hc] at hsum
  omega

/-- In a tree of the invariants the root alone may have grown: there is nothing above it. -/
theorem Tree.Filled.weighed : t.Weighed hufRoot := by
  have htp := h.linked.tp_lt
  refine ⟨?counted, fun i h1 h2 => ?rises, ?ceiling, fun q h1 h2 h3 => ?sum⟩
  case counted =>
    rw [counts_of_ne t htp.ne]
    exact h.counted
  case rises =>
    rw [counts_of_ne t h2.ne]
    by_cases hi : i + 1 = hufRoot
    · have hlt := h.weight_below_root
      rw [hi, counts_self, show i = hufRoot - 1 by omega]
      omega
    · rw [counts_of_ne t hi]
      exact h.rises i h1 h2
  case ceiling =>
    rw [counts_self]
    exact (Nat.sub_le ..).trans h.ceiling
  case sum =>
    obtain ⟨-, -, hlt, hw, -⟩ := h.inner q h1 h2 h3
    rw [hw, counts_of_ne t (by omega), counts_of_ne t (by omega)]

end

/-- The links and the weights, with nothing above the root to tell, are the invariants of R285. -/
theorem Tree.filled_of_weighed {t : Tree} (hl : t.Linked) (hw : t.Weighed hufRoot) (hmax : t.weight hufRoot ≤ hufMax) :
    t.Filled := by
  have htp := hl.tp_lt
  refine ⟨hl.low, hl.root, hl.leaf, fun q h1 h2 h3 => ?inner, hl.parent, ?counted, fun i h1 h2 => ?rises, hmax, hl.escape,
    hl.oneEscape⟩
  case inner =>
    obtain ⟨ha, hb, hlt⟩ := hl.child q h1 h2 h3
    obtain ⟨hp, hp'⟩ := hl.ofChild q h1 h2 h3
    have hs := hw.sum q h1 h2 h3
    rw [counts_of_ne t (by omega), counts_of_ne t (by omega)] at hs
    exact ⟨ha, hb, hlt, hs, hp, hp'⟩
  case counted =>
    rw [← counts_of_ne t htp.ne]
    exact hw.counted
  case rises =>
    have hr := hw.rises i h1 h2
    rw [counts_of_ne t h2.ne] at hr
    refine hr.trans ?_
    unfold counts
    split <;> omega

end Sys2Proof.Machine
end

section
/-! PROOFS. `Normalize` (42_huffman.md R264) carries a weight that has grown by one up to the root: each turn moves it to the top of
its equals, then to the parent; what the parents count, and so the order of the weights, stays. -/

namespace Sys2Proof.Machine

/-! ## The leaves of a tree as a list of nodes -/

/-- The nodes `a .. a + n - 1`, code and weight. -/
def Tree.nodes (t : Tree) (a n : Nat) : List (BitVec 32 × Nat) := (List.range' a n).map t.node

/-- The leaves of a list of nodes. -/
def leafNodes (l : List (BitVec 32 × Nat)) : List (BitVec 32 × Nat) := l.filter (fun n => n.1.msb)

theorem Tree.leaves_eq (t : Tree) : t.leaves = leafNodes (t.nodes t.tp.toNat (hufRoot - t.tp.toNat)) :=
  (List.filter_map (f := t.node) (p := fun n => n.1.msb) ..).symm

theorem leafNodes_append (l l' : List (BitVec 32 × Nat)) : leafNodes (l ++ l') = leafNodes l ++ leafNodes l' :=
  List.filter_append ..

theorem Tree.nodes_congr {t u : Tree} {a n : Nat} (h : ∀ i, a ≤ i → i < a + n → t.node i = u.node i) :
    t.nodes a n = u.nodes a n :=
  List.map_congr_left fun i hi => h i (List.mem_range'_1.mp hi).1 (List.mem_range'_1.mp hi).2

theorem Tree.mem_nodes {t : Tree} {a n : Nat} {x : BitVec 32 × Nat} :
    x ∈ t.nodes a n ↔ ∃ i, a ≤ i ∧ i < a + n ∧ t.node i = x := by
  simp [Tree.nodes, List.mem_map, and_assoc]

@[simp] theorem Tree.length_nodes (t : Tree) (a n : Nat) : (t.nodes a n).length = n := by simp [Tree.nodes]

theorem Tree.nodes_append (t : Tree) (a m n : Nat) : t.nodes a (m + n) = t.nodes a m ++ t.nodes (a + m) n := by
  rw [Tree.nodes, ← List.range'_append_1, List.map_append]; rfl

theorem Tree.nodes_succ (t : Tree) (a n : Nat) : t.nodes a (n + 1) = t.node a :: t.nodes (a + 1) n := rfl

theorem Tree.nodes_concat (t : Tree) (a n : Nat) : t.nodes a (n + 1) = t.nodes a n ++ [t.node (a + n)] := t.nodes_append a n 1

/-- A change of weights at internal nodes only leaves the leaves. -/
theorem Tree.leaves_congr {t u : Tree} (htp : u.tp = t.tp) (hc : ∀ i, u.c.get i = t.c.get i)
    (hw : ∀ i, t.tp.toNat ≤ i → i < hufRoot → (t.c.get i).msb = true → u.weight i = t.weight i) : u.leaves = t.leaves := by
  unfold Tree.leaves
  simp only [htp, hc]
  refine List.map_congr_left fun i hi => ?_
  obtain ⟨hr, hm⟩ := List.mem_filter.mp hi
  have hr := List.mem_range'_1.mp hr
  rw [hw i hr.1 (by omega) hm]

/-- A swap of two nodes only reorders the leaves. -/
theorem Tree.leaves_perm_of_swap {t u : Tree} {a b : Nat} (htp : u.tp = t.tp) (ha : t.tp.toNat ≤ a ∧ a < hufRoot)
    (hb : t.tp.toNat ≤ b ∧ b < hufRoot) (hn : ∀ i, u.node i = t.node (Equiv.swap a b i)) : u.leaves.Perm t.leaves := by
  have hperm : ((List.range' t.tp.toNat (hufRoot - t.tp.toNat)).map (Equiv.swap a b)).Perm
      (List.range' t.tp.toNat (hufRoot - t.tp.toNat)) := by
    refine (List.perm_ext_iff_of_nodup (List.Nodup.map (Equiv.injective _) (List.nodup_range' ..)) (List.nodup_range' ..)).mpr fun i => ?_
    simp only [List.mem_map, List.mem_range'_1]
    constructor
    · rintro ⟨j, hj, rfl⟩
      rw [Equiv.swap_apply_def]
      split_ifs <;> omega
    · intro hi
      refine ⟨Equiv.swap a b i, ?_, Equiv.swap_apply_self ..⟩
      rw [Equiv.swap_apply_def]
      split_ifs <;> omega
  rw [t.leaves_eq, u.leaves_eq, htp]
  have hu : u.nodes t.tp.toNat (hufRoot - t.tp.toNat) =
      ((List.range' t.tp.toNat (hufRoot - t.tp.toNat)).map (Equiv.swap a b)).map t.node := by
    rw [List.map_map]
    exact List.map_congr_left fun i _ => hn i
  rw [hu]
  exact (hperm.map _).filter _

/-! ## A tree in the middle of `Normalize` -/

/-- A tree whose node `up` has grown by one. -/
structure Tree.Growing (t : Tree) (up : Nat) : Prop where
  linked : t.Linked
  weighed : t.Weighed up
  inUse : t.tp.toNat ≤ up ∧ up ≤ hufRoot

theorem Tree.Filled.growing {t : Tree} (h : t.Filled) : t.Growing hufRoot := ⟨h.linked, h.weighed, h.linked.tp_lt.le, le_rfl⟩

theorem Tree.Growing.filled {t : Tree} (h : t.Growing hufRoot) (hmax : t.weight hufRoot ≤ hufMax) : t.Filled :=
  filled_of_weighed h.linked h.weighed hmax

namespace Tree.Growing

variable {t : Tree} {e : Nat} (h : t.Growing e)
include h

/-- Only nodes lighter than the grown one are passed over, and they weigh what it did before. -/
theorem counts_eq_of_lighter {j : Nat} (he : e ≤ j) (hj : j < hufRoot) (hlight : j ≠ e → t.weight j < t.weight e) :
    t.counts e j = t.counts e e := by
  by_cases hje : j = e
  · rw [hje]
  · have hup := h.weighed.weight_up h.inUse.1 h.inUse.2
    have hmono := h.weighed.mono h.inUse.1 he hj.le
    have := hlight hje
    rw [counts_of_ne t hje] at hmono ⊢
    omega

/-- The children of a node that counts for no more than node `k` are below `k`. -/
theorem child_lt_of_counts_le {j k : Nat} (hj : t.tp.toNat ≤ j ∧ j ≤ hufRoot) (hk : t.tp.toNat ≤ k) (hje : j ≠ e)
    (hm : (t.c.get j).msb = false) (hle : t.counts e j ≤ t.counts e k) : t.child j + 1 < k := by
  obtain ⟨hlo, -, hlt⟩ := h.linked.child j hj.1 hj.2 hm
  have hsum := h.weighed.sum j hj.1 hj.2 hm
  have hpos := h.weighed.pos hlo (by omega)
  rw [← counts_of_ne t hje] at hsum
  by_contra hcon
  have hmono := h.weighed.mono hk (show k ≤ t.child j + 1 by omega) (by omega)
  omega

end Tree.Growing

/-! ## The exchange -/

section

variable {t : Tree} {e sw : Nat}

theorem swap_inUse {lo i : Nat} (he : lo ≤ e ∧ e < hufRoot) (hsw : lo ≤ sw ∧ sw < hufRoot) (hi : lo ≤ i) :
    lo ≤ Equiv.swap e sw i ∧ (i ≤ hufRoot → Equiv.swap e sw i ≤ hufRoot) ∧ (i < hufRoot → Equiv.swap e sw i < hufRoot) := by
  rw [Equiv.swap_apply_def]
  split_ifs <;> omega

namespace Tree.Linked

variable (h : t.Linked) (he : t.tp.toNat ≤ e ∧ e < hufRoot) (hsw : t.tp.toNat ≤ sw ∧ sw < hufRoot)
include h he hsw

/-- The exchange moves the children along with their parents. -/
theorem exchange_p_get {i : Nat} (hi : t.tp.toNat ≤ i ∧ i < hufRoot) :
    ((t.exchange e sw).p.get i).toNat = Equiv.swap e sw (t.p.get i).toNat := by
  have hpe := h.parent_eq_iff ⟨he.1, he.2.le⟩ hi
  have hps := h.parent_eq_iff ⟨hsw.1, hsw.2.le⟩ hi
  rw [Tree.exchange, fix_p_get, fix_p_get]
  simp only [fix_c, fix_child, swapNodes_child, swapNodes_c_get, Equiv.swap_apply_left, Equiv.swap_apply_right]
  rw [if_congr hps.symm rfl rfl, if_congr hpe.symm rfl rfl, Equiv.swap_apply_def]
  split_ifs
  · rw [nodeRef_toNat he.2.le]
    omega
  · exact nodeRef_toNat he.2.le
  · exact nodeRef_toNat hsw.2.le
  · rfl

/-- The exchange moves ESC along with the escape leaf. -/
theorem exchange_esc : (t.exchange e sw).esc.toNat = Equiv.swap e sw t.esc.toNat := by
  have hesc : ∀ i, t.tp.toNat ≤ i ∧ i < hufRoot → (t.c.get i = hufEscape ↔ t.esc.toNat = i) := fun i hi =>
    ⟨fun hc => (h.oneEscape i hi.1 hi.2 hc).symm, fun hc => hc ▸ h.escape.2.2⟩
  rw [Tree.exchange, fix_esc, fix_esc, Equiv.swap_apply_def]
  simp only [fix_c, swapNodes_c_get, Equiv.swap_apply_left, Equiv.swap_apply_right, hesc e he, hesc sw hsw, swapNodes_esc]
  split_ifs
  · rw [nodeRef_toNat he.2.le]
    omega
  · exact nodeRef_toNat he.2.le
  · exact nodeRef_toNat hsw.2.le
  · rfl

/-- The exchange keeps the links when the children of each exchanged node are below the other. -/
theorem exchange (hbelow : ∀ q, t.tp.toNat ≤ q → q ≤ hufRoot → (t.c.get (Equiv.swap e sw q)).msb = false →
    t.child (Equiv.swap e sw q) + 1 < q) : (t.exchange e sw).Linked := by
  have hσ := fun i hi => swap_inUse (i := i) he hsw hi
  have hp := fun i h1 h2 => h.exchange_p_get he hsw (i := i) ⟨h1, h2⟩
  have hesc := h.exchange_esc he hsw
  have hroot : Equiv.swap e sw hufRoot = hufRoot := Equiv.swap_apply_of_ne_of_ne he.2.ne' hsw.2.ne'
  refine ⟨?low, ?root, ?leaf, ?child, ?ofChild, ?parent, ?escape, ?oneEscape⟩
  all_goals simp only [exchange_tp, exchange_c_get, exchange_child]
  case low => exact h.low
  case root => rw [hroot]; exact h.root
  case leaf => exact fun q h1 h2 => h.leaf _ (hσ q h1).1 ((hσ q h1).2.2 h2)
  case child =>
    intro q h1 h2 h3
    obtain ⟨ha, hb, -⟩ := h.child _ (hσ q h1).1 ((hσ q h1).2.1 h2) h3
    exact ⟨ha, hb, hbelow q h1 h2 h3⟩
  case ofChild =>
    intro q h1 h2 h3
    obtain ⟨hlo, hle, -⟩ := hσ q h1
    obtain ⟨ha, -, hc⟩ := h.child _ hlo (hle h2) h3
    obtain ⟨hpa, hpb⟩ := h.ofChild _ hlo (hle h2) h3
    have := hle h2
    rw [hp _ ha (by omega), hp _ (by omega) (by omega), hpa, hpb, Equiv.swap_apply_self]
    exact ⟨rfl, rfl⟩
  case parent =>
    intro i h1 h2
    obtain ⟨ha, hb, hc, hd⟩ := h.parent i h1 h2
    obtain ⟨hq, hq', -⟩ := hσ (t.p.get i).toNat (by omega)
    have hlt := hbelow _ hq (hq' hb) (by rwa [Equiv.swap_apply_self])
    rw [Equiv.swap_apply_self, hd] at hlt
    rw [hp i h1 h2, Equiv.swap_apply_self]
    exact ⟨by omega, hq' hb, hc, hd⟩
  case escape =>
    obtain ⟨ha, hb, hc⟩ := h.escape
    rw [hesc, Equiv.swap_apply_self]
    exact ⟨(hσ _ ha).1, (hσ _ ha).2.2 hb, hc⟩
  case oneEscape =>
    intro i h1 h2 h3
    rw [hesc, ← h.oneEscape _ (hσ i h1).1 ((hσ i h1).2.2 h2) h3, Equiv.swap_apply_self]

end Tree.Linked

namespace Tree.Growing

variable (h : t.Growing e) (hlt : e < sw) (hsw : sw < hufRoot) (heq : t.counts e sw = t.counts e e)
include h hlt heq

/-- The exchange with a node of the same weight leaves what the parents count at every node. -/
theorem exchange_counts (i : Nat) : (t.exchange e sw).counts sw i = t.counts e i := by
  have hup := h.weighed.weight_up h.inUse.1 h.inUse.2
  have hw := counts_of_ne t (show sw ≠ e by omega)
  unfold counts
  rw [exchange_weight]
  by_cases hs : i = sw
  · rw [if_pos hs, hs, Equiv.swap_apply_right, if_neg (by omega)]
    omega
  · by_cases he : i = e
    · rw [if_neg hs, if_pos he, he, Equiv.swap_apply_left]
      omega
    · rw [if_neg hs, if_neg he, Equiv.swap_apply_of_ne_of_ne he hs]

include hsw

/-- The exchange moves the growth to `sw`. -/
theorem exchange : (t.exchange e sw).Growing sw := by
  obtain ⟨htp, -⟩ := h.inUse
  have hcounts := h.exchange_counts hlt heq
  have he : t.tp.toNat ≤ e ∧ e < hufRoot := ⟨htp, by omega⟩
  have hsw' : t.tp.toNat ≤ sw ∧ sw < hufRoot := ⟨by omega, hsw⟩
  refine ⟨h.linked.exchange he hsw' fun q h1 h2 hm => ?below, ⟨?counted, ?rises, ?ceiling, ?sum⟩, ?inUse⟩
  case below =>
    rcases eq_or_ne q e with rfl | hqe
    · rw [Equiv.swap_apply_left] at hm ⊢
      exact h.child_lt_of_counts_le ⟨hsw'.1, hsw.le⟩ h1 (by omega) hm heq.le
    · rcases eq_or_ne q sw with rfl | hqs
      · rw [Equiv.swap_apply_right] at hm ⊢
        have := (h.linked.child e htp he.2.le hm).2.2
        omega
      · rw [Equiv.swap_apply_of_ne_of_ne hqe hqs] at hm ⊢
        exact (h.linked.child q h1 h2 hm).2.2
  all_goals simp only [exchange_tp, exchange_c_get, exchange_child, exchange_weight, hcounts]
  case counted => exact h.weighed.counted
  case rises => exact h.weighed.rises
  case ceiling => exact h.weighed.ceiling
  case sum =>
    intro q h1 h2
    obtain ⟨hlo, hle, -⟩ := swap_inUse he hsw' h1
    exact h.weighed.sum _ hlo (hle h2)
  case inUse => exact ⟨hsw'.1, hsw.le⟩

omit heq in
/-- The leaves after the exchange are the leaves before, in another order. -/
theorem leaves_exchange : (t.exchange e sw).leaves.Perm t.leaves :=
  leaves_perm_of_swap (t.exchange_tp e sw) ⟨h.inUse.1, by omega⟩ ⟨by have := h.inUse.1; omega, hsw⟩ (t.exchange_node e sw)

end Tree.Growing

end

/-! ## The recount -/

namespace Tree.Growing

variable {t : Tree} {e : Nat} (h : t.Growing e)
include h

/-- The root counts for more than the node below it, its second child. -/
theorem counts_below_root (he : e < hufRoot) : t.counts e (hufRoot - 1) < t.counts e hufRoot := by
  have hc := h.linked.root_child
  have htp := h.linked.tp_lt
  have hsum := h.weighed.sum hufRoot (by omega) le_rfl h.linked.root
  obtain ⟨hlo, -, hlt⟩ := h.linked.child hufRoot (by omega) le_rfl h.linked.root
  have hpos := h.weighed.pos hlo (by omega)
  rw [hc] at hsum
  rw [counts_of_ne t (show hufRoot ≠ e by omega), hsum]
  omega

/-- The children of an internal node weigh what it does, and one more when the grown node is among them. -/
theorem children_weight (he : e < hufRoot) {q : Nat} (hq : t.tp.toNat ≤ q ∧ q ≤ hufRoot) (hm : (t.c.get q).msb = false) :
    t.weight (t.child q) + t.weight (t.child q + 1) = t.weight q + if q = (t.p.get e).toNat then 1 else 0 := by
  have hup := h.weighed.weight_up h.inUse.1 he.le
  have hsum := h.weighed.sum q hq.1 hq.2 hm
  have hparent := h.linked.parent_eq_iff hq ⟨h.inUse.1, he⟩
  by_cases hc : e = t.child q
  · rw [← hc, counts_of_ne t (show e + 1 ≠ e by omega)] at hsum
    rw [if_pos (hparent.mpr ⟨hm, .inl hc⟩).symm, ← hc]
    omega
  · by_cases hc' : e = t.child q + 1
    · rw [← hc', counts_of_ne t (show t.child q ≠ e by omega)] at hsum
      rw [if_pos (hparent.mpr ⟨hm, .inr hc'⟩).symm, ← hc']
      omega
    · rw [counts_of_ne t (Ne.symm hc), counts_of_ne t (Ne.symm hc')] at hsum
      rw [if_neg fun hq' => (hparent.mp hq'.symm).2.elim hc hc', ← hsum]
      rfl

/-- The recount of the parent raises it by one. -/
theorem recount_parent_weight (he : e < hufRoot) (i : Nat) :
    (t.recount (t.p.get e).toNat).weight i = t.weight i + if i = (t.p.get e).toNat then 1 else 0 := by
  obtain ⟨hlt, hle, hm, -⟩ := h.linked.parent e h.inUse.1 he
  have htp := h.inUse.1
  have hmax := h.weighed.weight_le (t.p.get e).toNat (by omega) hle
  have hbound : hufMax = 0x4000 := rfl
  rw [recount_weight, h.children_weight he ⟨by omega, hle⟩ hm, if_pos rfl]
  split_ifs with hi
  · rw [hi]
    omega
  · rfl

/-- The recount of the parent hands the growth to it, when the node is the last of its equals. -/
theorem recount (he : e < hufRoot) (htop : t.counts e e < t.counts e (e + 1)) :
    (t.recount (t.p.get e).toNat).Growing (t.p.get e).toNat := by
  have htp := h.inUse.1
  obtain ⟨hlt, hle, -, -⟩ := h.linked.parent e htp he
  have hup := h.weighed.weight_up htp he.le
  have hw := h.recount_parent_weight he
  have hcounts : ∀ i, (t.recount (t.p.get e).toNat).counts (t.p.get e).toNat i = t.weight i := fun i => by
    unfold counts
    rw [hw]
    split_ifs <;> omega
  have hbefore : ∀ i, t.counts e i ≤ t.weight i := fun i => by
    unfold counts
    split_ifs <;> omega
  refine ⟨⟨h.linked.low, h.linked.root, h.linked.leaf, h.linked.child, h.linked.ofChild, h.linked.parent, h.linked.escape,
    h.linked.oneEscape⟩, ⟨?counted, fun i h1 h2 => ?rises, ?ceiling, fun q h1 h2 hm => ?sum⟩,
    ⟨show t.tp.toNat ≤ (t.p.get e).toNat by omega, hle⟩⟩
  case counted =>
    rw [hcounts]
    exact h.weighed.counted.trans (hbefore _)
  case rises =>
    rw [hcounts, hcounts]
    by_cases hi : i = e
    · rw [hi, hup, ← counts_of_ne t (show e + 1 ≠ e by omega)]
      exact htop
    · rw [← counts_of_ne t hi]
      exact (h.weighed.rises i h1 h2).trans (hbefore _)
  case ceiling =>
    rw [hcounts, ← counts_of_ne t (show hufRoot ≠ e by omega)]
    exact h.weighed.ceiling
  case sum =>
    rw [hw, hcounts, hcounts]
    exact (h.children_weight he ⟨h1, h2⟩ hm).symm

omit h in
/-- A recount changes no leaf. -/
theorem leaves_recount {q : Nat} (hm : (t.c.get q).msb = false) : (t.recount q).leaves = t.leaves :=
  leaves_congr rfl (fun _ => rfl) fun i _ _ hi => by
    rw [recount_weight, if_neg]
    rintro rfl
    exact absurd hi (by simp [hm])

end Tree.Growing

/-! ## The loop -/

/-- Where the search of `Normalize` for a node not lighter than `w` stops. -/
theorem Tree.firstNotLighter_spec (t : Tree) (w fuel sw : Nat) (hsw : sw ≤ hufRoot) (hf : hufRoot ≤ sw + fuel) :
    sw ≤ t.firstNotLighter w fuel sw ∧ t.firstNotLighter w fuel sw ≤ hufRoot
    ∧ (∀ j, sw ≤ j → j < t.firstNotLighter w fuel sw → t.weight j < w)
    ∧ (t.firstNotLighter w fuel sw < hufRoot → w ≤ t.weight (t.firstNotLighter w fuel sw)) := by
  induction fuel generalizing sw with
  | zero =>
    rw [firstNotLighter]
    exact ⟨le_rfl, hsw, fun j h1 h2 => absurd h2 (by omega), fun h => absurd h (by omega)⟩
  | succ fuel ih =>
    rw [firstNotLighter]
    split
    · next h =>
      obtain ⟨ha, hb, hc, hd⟩ := ih (sw + 1) (by omega) (by omega)
      refine ⟨by omega, hb, fun j h1 h2 => ?_, hd⟩
      rcases Nat.eq_or_lt_of_le h1 with rfl | h1
      · exact h.2
      · exact hc j h1 h2
    · next h => exact ⟨le_rfl, hsw, fun j h1 h2 => absurd h2 (by omega), fun h' => by omega⟩

/-- What a tree keeps of another through `Normalize`: the leaves but for their order, and TP. -/
def Tree.SameLeaves (t u : Tree) : Prop := u.leaves.Perm t.leaves ∧ u.tp = t.tp

theorem Tree.SameLeaves.trans {t u v : Tree} (h : t.SameLeaves u) (h' : u.SameLeaves v) : t.SameLeaves v :=
  ⟨h'.1.trans h.1, h'.2.trans h.2⟩

/-- One turn of `Normalize` below the root: the tree grows at a higher node. -/
theorem Tree.Growing.turn {t : Tree} {e fuel : Nat} (h : t.Growing e) (he : e < hufRoot) :
    ∃ u up, t.normalizeFrom (fuel + 1) e = u.normalizeFrom fuel up ∧ u.Growing up ∧ e < up ∧ t.SameLeaves u := by
  have hroot := hufRoot_eq
  have htp := h.inUse.1
  have hup := h.weighed.weight_up htp he.le
  obtain ⟨hlo, hhi, hlight, hstop⟩ := t.firstNotLighter_spec (t.weight e) 513 (e + 1) (by omega) (by omega)
  rw [normalizeFrom, if_pos he]
  generalize hs : t.firstNotLighter (t.weight e) 513 (e + 1) = stop at *
  dsimp only
  have heq := h.counts_eq_of_lighter (j := stop - 1) (by omega) (by omega) fun hne => hlight _ (by omega) (by omega)
  have htop : t.counts e (stop - 1) < t.counts e (stop - 1 + 1) := by
    rcases Nat.eq_or_lt_of_le hhi with hf | hf
    · rw [hf, show hufRoot - 1 + 1 = hufRoot by omega]
      exact h.counts_below_root he
    · have := hstop hf
      rw [heq, show stop - 1 + 1 = stop by omega, counts_of_ne t (show stop ≠ e by omega)]
      omega
  split
  · next hsw =>
    rw [hsw] at htop
    obtain ⟨hlt, -, hm, -⟩ := h.linked.parent e h.inUse.1 he
    exact ⟨_, _, rfl, h.recount he htop, hlt, by rw [leaves_recount hm], rfl⟩
  · next hsw =>
    have hlt : e < stop - 1 := by omega
    have hx := h.exchange hlt (by omega) heq
    have hcounts := h.exchange_counts hlt heq
    obtain ⟨hup', hle, -⟩ := h.linked.parent (stop - 1) (by omega) (by omega)
    have hp : ((t.exchange e (stop - 1)).p.get (stop - 1)).toNat = (t.p.get (stop - 1)).toNat := by
      rw [h.linked.exchange_p_get ⟨htp, he⟩ ⟨by omega, by omega⟩ ⟨by omega, by omega⟩,
        Equiv.swap_apply_of_ne_of_ne (by omega) (by omega)]
    have hr := hx.recount (by omega) (by rwa [hcounts, hcounts])
    obtain ⟨-, -, hm, -⟩ := hx.linked.parent _ hx.inUse.1 (by omega)
    rw [hp] at hr hm
    exact ⟨_, _, rfl, hr, by omega, (leaves_recount hm).symm ▸ h.leaves_exchange hlt (by omega), t.exchange_tp ..⟩

/-- `Normalize(e)` carries the growth to the root. -/
theorem Tree.Growing.normalizeFrom {t : Tree} {e fuel : Nat} (h : t.Growing e) (hf : hufRoot ≤ e + fuel) :
    (t.normalizeFrom fuel e).Growing hufRoot ∧ t.SameLeaves (t.normalizeFrom fuel e) := by
  induction fuel generalizing t e with
  | zero =>
    obtain rfl : e = hufRoot := by have := h.inUse.2; omega
    exact ⟨h, .refl _, rfl⟩
  | succ fuel ih =>
    rcases Nat.eq_or_lt_of_le h.inUse.2 with rfl | he
    · rw [Tree.normalizeFrom, if_neg (lt_irrefl _)]
      exact ⟨h, .refl _, rfl⟩
    · obtain ⟨u, up, heq, hu, hlt, hs⟩ := h.turn (fuel := fuel) he
      obtain ⟨hg, hl⟩ := ih hu (by omega)
      rw [heq]
      exact ⟨hg, hs.trans hl⟩

theorem Tree.Growing.normalize {t : Tree} {e : Nat} (h : t.Growing e) :
    (t.normalize e).Growing hufRoot ∧ t.SameLeaves (t.normalize e) :=
  h.normalizeFrom (by have := hufRoot_eq; omega)

end Sys2Proof.Machine
end

section
/-! PROOFS. The leaves of a tree add up to its root, and there is one more leaf than there are internal nodes (42_huffman.md R285
items 1 and 4). -/

namespace Sys2Proof.Machine

/-- The internal nodes of a tree. -/
def Tree.inners (t : Tree) : Finset Nat := (Finset.Icc t.tp.toNat hufRoot).filter fun q => (t.c.get q).msb = false

theorem Tree.mem_inners {t : Tree} {q : Nat} :
    q ∈ t.inners ↔ (t.tp.toNat ≤ q ∧ q ≤ hufRoot) ∧ (t.c.get q).msb = false := by
  simp [Tree.inners]

/-- A sum over the leaves of a tree, by node. -/
theorem Tree.sum_leaves (t : Tree) (f : BitVec 32 × Nat → Nat) : (t.leaves.map f).sum =
    ∑ i ∈ (Finset.Ico t.tp.toNat hufRoot).filter (fun i => (t.c.get i).msb = true), f (t.node i) := by
  have hidx : (Finset.Ico t.tp.toNat hufRoot).filter (fun i => (t.c.get i).msb = true) =
      ((List.range' t.tp.toNat (hufRoot - t.tp.toNat)).filter (fun i => isLeafCode (t.c.get i))).toFinset := by
    ext i
    simp only [Finset.mem_filter, Finset.mem_Ico, List.mem_toFinset, List.mem_filter, List.mem_range'_1, isLeafCode]
    exact and_congr_left fun _ => by omega
  rw [hidx, List.sum_toFinset _ ((List.nodup_range' ..).filter _), Tree.leaves, List.map_map]
  rfl

namespace Tree.Linked

variable {t : Tree} (h : t.Linked)
include h

/-- The nodes below the root are the children of the internal nodes, each once. -/
theorem sum_children (f : Nat → Nat) :
    ∑ i ∈ Finset.Ico t.tp.toNat hufRoot, f i = ∑ q ∈ t.inners, (f (t.child q) + f (t.child q + 1)) := by
  have hmaps : ∀ i ∈ Finset.Ico t.tp.toNat hufRoot, (t.p.get i).toNat ∈ t.inners := fun i hi => by
    obtain ⟨hlo, hhi⟩ := Finset.mem_Ico.mp hi
    obtain ⟨ha, hb, hc, -⟩ := h.parent i hlo hhi
    exact mem_inners.mpr ⟨⟨by omega, hb⟩, hc⟩
  rw [← Finset.sum_fiberwise_of_maps_to hmaps]
  refine Finset.sum_congr rfl fun q hq => ?_
  obtain ⟨⟨hlo, hhi⟩, hm⟩ := mem_inners.mp hq
  obtain ⟨ha, -, hb⟩ := h.child q hlo hhi hm
  have hfiber : (Finset.Ico t.tp.toNat hufRoot).filter (fun i => (t.p.get i).toNat = q) = {t.child q, t.child q + 1} := by
    ext i
    rw [Finset.mem_filter, Finset.mem_Ico, Finset.mem_insert, Finset.mem_singleton]
    constructor
    · rintro ⟨hi, hp⟩
      exact ((h.parent_eq_iff ⟨hlo, hhi⟩ hi).mp hp).2
    · intro hi
      have hr : t.tp.toNat ≤ i ∧ i < hufRoot := by omega
      exact ⟨hr, (h.parent_eq_iff ⟨hlo, hhi⟩ hr).mpr ⟨hm, hi⟩⟩
  rw [hfiber, Finset.sum_pair (by omega)]

/-- A quantity of a node that its children share out, but for `d`, comes to the leaves from the root. -/
theorem sum_leaves_of_shared {f : Nat → Nat} {d : Nat}
    (hf : ∀ q ∈ t.inners, f (t.child q) + f (t.child q + 1) = f q + d) :
    ∑ i ∈ (Finset.Ico t.tp.toNat hufRoot).filter (fun i => (t.c.get i).msb = true), f i = f hufRoot + t.inners.card * d := by
  have htp := h.tp_lt
  have hall := h.sum_children f
  rw [Finset.sum_congr rfl hf, Finset.sum_add_distrib, Finset.sum_const, smul_eq_mul] at hall
  have hroot : t.inners = insert hufRoot ((Finset.Ico t.tp.toNat hufRoot).filter fun q => (t.c.get q).msb = false) := by
    ext q
    rw [mem_inners, Finset.mem_insert, Finset.mem_filter, Finset.mem_Ico]
    constructor
    · rintro ⟨hq, hm⟩
      rcases Nat.eq_or_lt_of_le hq.2 with rfl | hlt
      · exact .inl rfl
      · exact .inr ⟨⟨hq.1, hlt⟩, hm⟩
    · rintro (rfl | ⟨hq, hm⟩)
      · exact ⟨⟨htp.le, le_rfl⟩, h.root⟩
      · exact ⟨⟨hq.1, hq.2.le⟩, hm⟩
  have hsplit := Finset.sum_filter_add_sum_filter_not (Finset.Ico t.tp.toNat hufRoot) (fun i => (t.c.get i).msb = true) f
  simp only [Bool.not_eq_true] at hsplit
  have hinner : ∑ q ∈ t.inners, f q = f hufRoot
      + ∑ i ∈ (Finset.Ico t.tp.toNat hufRoot).filter (fun i => (t.c.get i).msb = false), f i := by
    rw [hroot, Finset.sum_insert (by simp)]
  omega

/-- Item 4 of R285: the number of leaves. -/
theorem length_leaves : 2 * t.leaves.length = hufRoot - t.tp.toNat + 2 := by
  have hcard := h.sum_leaves_of_shared (f := fun _ => 1) (d := 1) fun _ _ => rfl
  have hlen := t.sum_leaves fun _ => 1
  have hall := h.sum_children fun _ => 1
  rw [List.map_const', List.sum_replicate, smul_eq_mul, mul_one] at hlen
  simp only [Finset.sum_const, smul_eq_mul, Nat.card_Ico] at hall
  omega

end Tree.Linked

/-- The weight of the root is the weight of the leaves. -/
theorem Tree.Growing.root_weight {t : Tree} (h : t.Growing hufRoot) : t.weight hufRoot = (t.leaves.map Prod.snd).sum := by
  have hsum := h.linked.sum_leaves_of_shared (f := t.weight) (d := 0) fun q hq => by
    obtain ⟨⟨hlo, hhi⟩, hm⟩ := mem_inners.mp hq
    obtain ⟨-, -, hlt⟩ := h.linked.child q hlo hhi hm
    rw [h.weighed.sum q hlo hhi hm, counts_of_ne t (by omega), counts_of_ne t (by omega)]
    rfl
  rw [t.sum_leaves, Nat.mul_zero, Nat.add_zero] at *
  exact hsum.symm

end Sys2Proof.Machine
end

section
/-! PROOFS. `HalfAndRebuild` (42_huffman.md R267): the halved leaves, packed at the top, are merged into a tree of the invariants of
R285. The nodes that the loop has placed and those still pending are one list; taking the two lightest moves the border between the
two parts, and only the new parent is added to it. -/

namespace Sys2Proof.Machine

/-! ## Packing the halved leaves -/

/-- `W[i] <- (W[i] + 1) >> 1` (R267). -/
def Tree.halveAt (t : Tree) (i : Nat) : Tree := { t with w := t.w.set i ((t.w.get i + 1) >>> 1) }

theorem Tree.halveAt_node {t : Tree} {i : Nat} (h : t.weight i < 2 ^ 16 - 1) (k : Nat) :
    (t.halveAt i).node k = if k = i then halveLeaf (t.node i) else t.node k := by
  have hadd : (t.w.get i + 1).toNat = (t.w.get i).toNat + 1 := by
    rw [BitVec.toNat_add]
    exact Nat.mod_eq_of_lt (by have : (t.w.get i).toNat < 2 ^ 16 - 1 := h; simp; omega)
  split
  · next hk =>
    subst hk
    refine Prod.ext rfl ?_
    rw [node, weight, halveAt, Store.get_set_same, BitVec.toNat_ushiftRight, hadd, Nat.shiftRight_eq_div_pow]
    rfl
  · next hk => simp [node_eq_iff, halveAt, Store.get_set, hk]

/-- The packing of R267: the leaves of `n` nodes from `tp` on, halved, are now on top of what stood above `nxt`. -/
theorem Tree.packLeaves_spec (t : Tree) (tp n nxt : Nat) (hn : tp + n ≤ nxt) (hnxt : nxt ≤ hufRoot)
    (hw : ∀ i, tp ≤ i → i < tp + n → t.weight i < 2 ^ 16 - 1) :
    (t.packLeaves tp n nxt).2 + (leafNodes (t.nodes tp n)).length = nxt
    ∧ (t.packLeaves tp n nxt).1.nodes ((t.packLeaves tp n nxt).2 + 1) (hufRoot - (t.packLeaves tp n nxt).2) =
      (leafNodes (t.nodes tp n)).map halveLeaf ++ t.nodes (nxt + 1) (hufRoot - nxt)
    ∧ (t.packLeaves tp n nxt).1.tp = t.tp := by
  induction n generalizing t nxt with
  | zero => exact ⟨rfl, rfl, rfl⟩
  | succ m ih =>
    rw [packLeaves, nodes_concat, leafNodes_append]
    dsimp only
    cases hm : (t.c.get (tp + m)).msb with
    | false =>
      rw [if_neg (by simp [isLeafCode, hm]), show leafNodes [t.node (tp + m)] = [] by simp [leafNodes, node, hm], List.append_nil]
      exact ih t nxt (by omega) hnxt fun i h1 h2 => hw i h1 (by omega)
    | true =>
      rw [if_pos (by simp [isLeafCode, hm]),
        show leafNodes [t.node (tp + m)] = [t.node (tp + m)] by simp [leafNodes, node, hm]]
      have hnode := fun k => halveAt_node (hw (tp + m) (by omega) (by omega)) k
      have hlow : ∀ i, i < tp + m → ((t.halveAt (tp + m)).moveNode nxt (tp + m)).node i = t.node i := fun i hi => by
        rw [moveNode_node, if_neg (by omega), hnode, if_neg (by omega)]
      have hhigh : ∀ i, nxt < i → ((t.halveAt (tp + m)).moveNode nxt (tp + m)).node i = t.node i := fun i hi => by
        rw [moveNode_node, if_neg (by omega), hnode, if_neg (by omega)]
      have hmoved : ((t.halveAt (tp + m)).moveNode nxt (tp + m)).node nxt = halveLeaf (t.node (tp + m)) := by
        rw [moveNode_node, if_pos rfl, hnode, if_pos rfl]
      obtain ⟨hlen, hnodes, htp⟩ := ih ((t.halveAt (tp + m)).moveNode nxt (tp + m)) (nxt - 1) (by omega) (by omega)
        fun i h1 h2 => by
          rw [show ((t.halveAt (tp + m)).moveNode nxt (tp + m)).weight i = t.weight i from congrArg Prod.snd (hlow i h2)]
          exact hw i h1 (by omega)
      rw [nodes_congr (u := t) fun i _ h2 => hlow i h2] at hlen hnodes
      rw [show hufRoot - (nxt - 1) = hufRoot - nxt + 1 by omega, show nxt - 1 + 1 = nxt by omega, nodes_succ, hmoved,
        nodes_congr (u := t) fun i h1 _ => hhigh i h1] at hnodes
      refine ⟨?_, hnodes.trans ?_, htp⟩
      · show (((t.halveAt (tp + m)).moveNode nxt (tp + m)).packLeaves tp m (nxt - 1)).2 + _ = nxt
        rw [List.length_append, List.length_singleton]
        omega
      · rw [List.map_append, List.append_assoc]
        rfl

/-! ## The list of the nodes placed and pending -/

/-- The codes that name one place of the tree: those of the internal nodes and the escape's. -/
def pointsBack (c : BitVec 32) : Bool := !c.msb || c == hufEscape

/-- The nodes of a rebuild with the leaves `leaves`, over `m` pairs of children from `b` on, by rising weight; `w` weighs the nodes
already placed. -/
structure Joined (nodes : List (BitVec 32 × Nat)) (w : Nat → Nat) (b m : Nat) (leaves : List (BitVec 32 × Nat)) : Prop where
  leaves : leafNodes nodes = leaves
  rises : nodes.Pairwise fun x y => x.2 ≤ y.2
  children : ∀ c, (∃ x ∈ nodes, x.1.msb = false ∧ x.1.toNat = c) ↔ ∃ j < m, c = b + 2 * j
  unique : ((nodes.map Prod.fst).filter pointsBack).Nodup
  sums : ∀ x ∈ nodes, x.1.msb = false → x.2 = w x.1.toNat + w (x.1.toNat + 1)

namespace Joined

variable {l l' leaves : List (BitVec 32 × Nat)} {w w' : Nat → Nat} {b m : Nat}

/-- Only the weights of the pairs matter. -/
theorem congr_weights (h : Joined l w b m leaves) (hw : ∀ i, i < b + 2 * m → w' i = w i) : Joined l w' b m leaves :=
  { h with
    sums := fun x hx hm => by
      obtain ⟨j, hj, hc⟩ := (h.children x.1.toNat).mp ⟨x, hx, hm, rfl⟩
      rw [hw _ (by omega), hw _ (by omega)]
      exact h.sums x hx hm }

theorem parentCode_toNat {i : Nat} (hi : i ≤ hufRoot) : (BitVec.ofNat 32 i).toNat = i ∧ (BitVec.ofNat 32 i).msb = false := by
  have := hufRoot_eq
  have hn : (BitVec.ofNat 32 i).toNat = i := by rw [BitVec.toNat_ofNat]; omega
  exact ⟨hn, by rw [BitVec.msb_eq_false_iff_two_mul_lt, hn]; omega⟩

/-- A new parent over the pair after the `m` there are. -/
theorem add (h : Joined l w b m leaves) (hm : b + 2 * m ≤ hufRoot)
    (hperm : l'.Perm ((BitVec.ofNat 32 (b + 2 * m), w (b + 2 * m) + w (b + 2 * m + 1)) :: l))
    (hleaves : leafNodes l' = leafNodes l) (hrises : l'.Pairwise fun x y => x.2 ≤ y.2)
    (hw : ∀ i, i < b + 2 * m + 2 → w' i = w i) : Joined l' w' b (m + 1) leaves := by
  obtain ⟨hcode, hmsb⟩ := parentCode_toNat hm
  have hl := h.congr_weights (w' := w') fun i hi => hw i (by omega)
  refine ⟨hleaves.trans h.leaves, hrises, fun c => ?children, ?unique, fun x hx hxm => ?sums⟩
  case children =>
    simp only [hperm.mem_iff, List.mem_cons]
    constructor
    · rintro ⟨x, rfl | hx, hxm, rfl⟩
      · exact ⟨m, by omega, hcode⟩
      · obtain ⟨j, hj, hc⟩ := (h.children _).mp ⟨x, hx, hxm, rfl⟩
        exact ⟨j, by omega, hc⟩
    · rintro ⟨j, hj, rfl⟩
      rcases Nat.eq_or_lt_of_le (Nat.le_of_lt_succ hj) with rfl | hj
      · exact ⟨_, .inl rfl, hmsb, hcode⟩
      · obtain ⟨x, hx, hxm, hc⟩ := (h.children _).mpr ⟨j, hj, rfl⟩
        exact ⟨x, .inr hx, hxm, hc⟩
  case unique =>
    rw [((hperm.map Prod.fst).filter pointsBack).nodup_iff, List.map_cons, List.filter_cons_of_pos (by simp [pointsBack, hmsb]),
      List.nodup_cons]
    refine ⟨fun hmem => ?_, h.unique⟩
    obtain ⟨x, hx, hxc⟩ := List.mem_map.mp (List.mem_filter.mp hmem).1
    obtain ⟨j, hj, hc⟩ := (h.children (b + 2 * m)).mp ⟨x, hx, hxc ▸ hmsb, hxc ▸ hcode⟩
    omega
  case sums =>
    rcases List.mem_cons.mp (hperm.mem_iff.mp hx) with rfl | hx
    · rw [hcode, hw _ (by omega), hw _ (by omega)]
    · exact hl.sums x hx hxm

end Joined

/-! ## The loop -/

/-- The nodes placed, from `b` below `i`, and those pending, from `nxt` to the root. -/
def Tree.live (t : Tree) (b i nxt : Nat) : List (BitVec 32 × Nat) := t.nodes b (i - b) ++ t.nodes nxt (hufRoot + 1 - nxt)

/-- The merge loop of R267 with `m` parents made: the placed nodes are linked to their children. -/
structure Tree.Merging (t : Tree) (b i nxt m : Nat) (leaves : List (BitVec 32 × Nat)) : Prop where
  joined : Joined (t.live b i nxt) t.weight b m leaves
  linked : ∀ q, b ≤ q → q < i → (t.c.get q).msb = false →
    t.child q + 1 < q ∧ (t.p.get (t.child q)).toNat = q ∧ (t.p.get (t.child q + 1)).toNat = q
  escape : ∀ q, b ≤ q → q < i → t.c.get q = hufEscape → t.esc.toNat = q

/-- The two lightest pending nodes placed at `i` and `i + 1` (R267). -/
def Tree.place (t : Tree) (i nxt : Nat) : Tree :=
  (((t.moveNode i nxt).moveNode (i + 1) (nxt + 1)).fix i).fix (i + 1)

theorem Tree.place_node (t : Tree) {i nxt : Nat} (h : i ≤ nxt) (k : Nat) :
    (t.place i nxt).node k = if k = i then t.node nxt else if k = i + 1 then t.node (nxt + 1) else t.node k := by
  rw [place, fix_node, fix_node, moveNode_node, moveNode_node, moveNode_node, if_neg (show nxt + 1 ≠ i by omega)]
  by_cases hk : k = i
  · rw [if_pos hk, if_pos hk, if_neg (by omega)]
  · rw [if_neg hk, if_neg hk]

theorem Tree.place_weight_lt (t : Tree) {i nxt k : Nat} (h : i ≤ nxt) (hk : k < i) : (t.place i nxt).weight k = t.weight k := by
  have := t.place_node h k
  rw [if_neg (by omega), if_neg (by omega)] at this
  exact congrArg Prod.snd this

theorem Tree.place_c_lt (t : Tree) {i nxt k : Nat} (h : i ≤ nxt) (hk : k < i) : (t.place i nxt).c.get k = t.c.get k := by
  have := t.place_node h k
  rw [if_neg (by omega), if_neg (by omega)] at this
  exact congrArg Prod.fst this

/-- The parents of the nodes below `i` after two nodes are placed there. -/
theorem Tree.place_p_get (t : Tree) (i nxt : Nat) {k : Nat} (hk : k < i) : (t.place i nxt).p.get k =
    if ((t.place i nxt).c.get (i + 1)).msb = false
        ∧ (k = (t.place i nxt).child (i + 1) ∨ k = (t.place i nxt).child (i + 1) + 1) then nodeRef (i + 1)
    else if ((t.place i nxt).c.get i).msb = false
        ∧ (k = (t.place i nxt).child i ∨ k = (t.place i nxt).child i + 1) then nodeRef i
    else t.p.get k := by
  simp only [place, fix_p_get, fix_c, fix_child, moveNode_p, Store.get_set, if_neg (show k ≠ i by omega),
    if_neg (show k ≠ i + 1 by omega)]

theorem Tree.place_esc (t : Tree) (i nxt : Nat) : (t.place i nxt).esc =
    if (t.place i nxt).c.get (i + 1) = hufEscape then nodeRef (i + 1)
    else if (t.place i nxt).c.get i = hufEscape then nodeRef i else t.esc := by
  simp only [place, fix_esc, fix_c, moveNode_esc]

/-- Placing two nodes only moves the border in the list. -/
theorem Tree.place_live (t : Tree) {b i nxt : Nat} (hb : b ≤ i) (hi : i ≤ nxt) (hn : nxt < hufRoot) :
    (t.place i nxt).live b (i + 2) (nxt + 2) = t.live b i nxt := by
  have hpending : t.nodes nxt (hufRoot + 1 - nxt) =
      t.node nxt :: t.node (nxt + 1) :: t.nodes (nxt + 2) (hufRoot + 1 - (nxt + 2)) := by
    rw [show hufRoot + 1 - nxt = hufRoot + 1 - (nxt + 2) + 1 + 1 by omega, nodes_succ, nodes_succ]
  have hplaced : (t.place i nxt).nodes b (i + 2 - b) = t.nodes b (i - b) ++ [t.node nxt, t.node (nxt + 1)] := by
    rw [show i + 2 - b = i - b + 2 by omega, nodes_append, show b + (i - b) = i by omega, nodes_succ, nodes_succ,
      t.place_node hi, if_pos rfl, t.place_node hi, if_neg (by omega), if_pos rfl]
    congr 1
    refine nodes_congr fun k _ hk => ?_
    rw [t.place_node hi, if_neg (by omega), if_neg (by omega)]
  have hrest : (t.place i nxt).nodes (nxt + 2) (hufRoot + 1 - (nxt + 2)) = t.nodes (nxt + 2) (hufRoot + 1 - (nxt + 2)) :=
    nodes_congr fun k hk _ => by rw [t.place_node hi, if_neg (by omega), if_neg (by omega)]
  rw [live, live, hplaced, hrest, hpending, List.append_assoc]
  rfl

section

variable {t : Tree} {b n m : Nat} {l leaves : List (BitVec 32 × Nat)} {w : Nat → Nat} (h : Joined (t.nodes b n ++ l) w b m leaves)
include h

/-- The children of a placed node are one of the pairs. -/
theorem Joined.placed_child {q : Nat} (hq : b ≤ q ∧ q < b + n) (hm : (t.c.get q).msb = false) : ∃ j < m, t.child q = b + 2 * j :=
  (h.children _).mp ⟨_, List.mem_append_left _ (Tree.mem_nodes.mpr ⟨q, hq.1, hq.2, rfl⟩), hm, rfl⟩

/-- No two placed nodes have the same children or are both the escape leaf. -/
theorem Joined.placed_inj {q r : Nat} (hq : b ≤ q ∧ q < b + n) (hr : b ≤ r ∧ r < b + n) (hp : pointsBack (t.c.get q) = true)
    (he : t.c.get q = t.c.get r) : q = r := by
  have hu := h.unique
  rw [List.map_append, List.filter_append, Tree.nodes, List.map_map, List.filter_map] at hu
  refine List.inj_on_of_nodup_map (List.nodup_append.mp hu).1 ?_ ?_ he
  · exact List.mem_filter.mpr ⟨List.mem_range'_1.mpr hq, hp⟩
  · exact List.mem_filter.mpr ⟨List.mem_range'_1.mpr hr, show pointsBack (t.c.get r) = true from he ▸ hp⟩

/-- A node is a child of one placed node at most. -/
theorem Joined.placed_not_child {q r k : Nat} (hq : b ≤ q ∧ q < b + n) (hr : b ≤ r ∧ r < b + n) (hqr : q ≠ r)
    (hm : (t.c.get q).msb = false) (hk : k = t.child q ∨ k = t.child q + 1) :
    ¬ ((t.c.get r).msb = false ∧ (k = t.child r ∨ k = t.child r + 1)) := by
  rintro ⟨hmr, hkr⟩
  obtain ⟨j, -, hcq⟩ := h.placed_child hq hm
  obtain ⟨j', -, hcr⟩ := h.placed_child hr hmr
  have hne : t.child q ≠ t.child r := fun hc => hqr (h.placed_inj hq hr (by simp [pointsBack, hm]) (BitVec.eq_of_toNat_eq hc))
  omega

end

section

variable {t : Tree} {b i nxt m : Nat} {leaves : List (BitVec 32 × Nat)} (h : t.Merging b i nxt m leaves) (hi : i = b + 2 * m)
  (hle : i ≤ nxt) (hn : nxt < hufRoot)
include h hi hle hn

theorem Tree.Merging.place_joined : Joined ((t.place i nxt).live b (i + 2) (nxt + 2)) (t.place i nxt).weight b m leaves :=
  t.place_live (b := b) (by omega) hle hn ▸ h.joined.congr_weights fun _ hk => t.place_weight_lt hle (by omega)

/-- The two nodes placed are linked to their children, and those before still are. -/
theorem Tree.Merging.place_linked {q : Nat} (hq : b ≤ q ∧ q < i + 2) (hm : ((t.place i nxt).c.get q).msb = false) :
    (t.place i nxt).child q + 1 < q ∧ ((t.place i nxt).p.get ((t.place i nxt).child q)).toNat = q
    ∧ ((t.place i nxt).p.get ((t.place i nxt).child q + 1)).toNat = q := by
  have hj := h.place_joined hi hle hn
  obtain ⟨j, hjm, hcq⟩ := hj.placed_child (q := q) (by omega) hm
  have hother := fun r (hr : b ≤ r ∧ r < i + 2) (hqr : q ≠ r) k =>
    hj.placed_not_child (q := q) (r := r) (k := k) (by omega) (by omega) hqr hm
  rw [t.place_p_get i nxt (by omega), t.place_p_get i nxt (by omega)]
  by_cases hq1 : q = i + 1
  · subst hq1
    rw [if_pos ⟨hm, .inl rfl⟩, if_pos ⟨hm, .inr rfl⟩, nodeRef_toNat (by omega)]
    exact ⟨by omega, rfl, rfl⟩
  · rw [if_neg (hother _ (by omega) hq1 _ (.inl rfl)), if_neg (hother _ (by omega) hq1 _ (.inr rfl))]
    by_cases hq0 : q = i
    · subst hq0
      rw [if_pos ⟨hm, .inl rfl⟩, if_pos ⟨hm, .inr rfl⟩, nodeRef_toNat (by omega)]
      exact ⟨by omega, rfl, rfl⟩
    · have hc := t.place_c_lt hle (show q < i by omega)
      rw [if_neg (hother _ (by omega) hq0 _ (.inl rfl)), if_neg (hother _ (by omega) hq0 _ (.inr rfl)), Tree.child, hc]
      exact h.linked q hq.1 (by omega) (hc ▸ hm)

/-- ESC is the escape leaf when that is placed. -/
theorem Tree.Merging.place_escape {q : Nat} (hq : b ≤ q ∧ q < i + 2) (hc : (t.place i nxt).c.get q = hufEscape) :
    (t.place i nxt).esc.toNat = q := by
  have hj := h.place_joined hi hle hn
  have hother : ∀ r, b ≤ r ∧ r < i + 2 → q ≠ r → (t.place i nxt).c.get r ≠ hufEscape := fun r hr hqr hcr =>
    hqr (hj.placed_inj (by omega) (by omega) (by simp [pointsBack, hc]) (hc.trans hcr.symm))
  rw [t.place_esc]
  by_cases hq1 : q = i + 1
  · rw [if_pos (hq1 ▸ hc), hq1, nodeRef_toNat (by omega)]
  · rw [if_neg (hother _ (by omega) hq1)]
    by_cases hq0 : q = i
    · rw [if_pos (hq0 ▸ hc), hq0, nodeRef_toNat (by omega)]
    · rw [if_neg (hother _ (by omega) hq0)]
      exact h.escape q hq.1 (by omega) (t.place_c_lt hle (show q < i by omega) ▸ hc)

/-- Placing the two lightest nodes keeps the loop's invariant. -/
theorem Tree.Merging.place : (t.place i nxt).Merging b (i + 2) (nxt + 2) m leaves :=
  ⟨h.place_joined hi hle hn, fun _ h1 h2 => h.place_linked hi hle hn ⟨h1, h2⟩, fun _ h1 h2 => h.place_escape hi hle hn ⟨h1, h2⟩⟩

end

/-! ## The new parent among the pending nodes -/

/-- The order of the pending nodes. -/
abbrev Lighter (x y : BitVec 32 × Nat) : Prop := x.2 ≤ y.2

/-- The sorted insert of R267. -/
theorem Tree.insertParent_spec {t : Tree} {w : BitVec 16} {c : Nat} (fuel j : Nat) (h0 : 1 ≤ j) (hj : j ≤ hufRoot)
    (hf : hufRoot + 1 ≤ j + fuel) :
    (∀ k < j - 1, (t.insertParent fuel j w c).node k = t.node k ∧ (t.insertParent fuel j w c).p.get k = t.p.get k)
    ∧ (t.insertParent fuel j w c).nodes (j - 1) (hufRoot + 1 - (j - 1)) =
      (t.nodes j (hufRoot + 1 - j)).orderedInsert Lighter (BitVec.ofNat 32 c, w.toNat)
    ∧ (t.insertParent fuel j w c).esc = t.esc ∧ (t.insertParent fuel j w c).tp = t.tp := by
  induction fuel generalizing t j with
  | zero => omega
  | succ fuel ih =>
    rw [insertParent, show hufRoot + 1 - (j - 1) = hufRoot + 1 - j + 1 by omega, nodes_succ, show j - 1 + 1 = j by omega,
      show hufRoot + 1 - j = hufRoot - j + 1 by omega, nodes_succ t]
    by_cases hw : w.toNat ≤ t.weight j
    · rw [if_pos hw, List.orderedInsert, if_pos (show Lighter (_, w.toNat) (t.node j) from hw)]
      refine ⟨fun k hk => ⟨?_, rfl⟩, ?_, rfl, rfl⟩
      · rw [setParent_node, if_neg (by omega)]
      · rw [setParent_node, if_pos rfl, ← nodes_succ]
        congr 1
        exact nodes_congr fun k hk _ => by rw [setParent_node, if_neg (by omega)]
    · rw [if_neg hw, List.orderedInsert, if_neg (show ¬ Lighter (_, w.toNat) (t.node j) from hw)]
      dsimp only
      by_cases hend : hufRoot < j + 1
      · rw [if_pos hend, show hufRoot - j = 0 by omega]
        refine ⟨fun k hk => ⟨?_, ?_⟩, ?_, rfl, rfl⟩
        · rw [setParent_node, if_neg (by omega), moveNode_node, if_neg (by omega)]
        · rw [setParent_p, moveNode_p, Store.get_set, if_neg (by omega)]
        · rw [setParent_node, if_neg (by omega), moveNode_node, if_pos rfl, nodes_succ, setParent_node, if_pos rfl]
          rfl
      · rw [if_neg hend]
        obtain ⟨hlow, hnodes, hesc, htp⟩ := ih (t := t.moveNode (j - 1) j) (j + 1) (by omega) (by omega) (by omega)
        refine ⟨fun k hk => ?_, ?_, hesc, htp⟩
        · obtain ⟨hn, hp⟩ := hlow k (by omega)
          rw [hn, hp, moveNode_node, if_neg (by omega), moveNode_p, Store.get_set, if_neg (by omega)]
          exact ⟨rfl, rfl⟩
        · rw [(hlow (j - 1) (by omega)).1, moveNode_node, if_pos rfl]
          rw [show j + 1 - 1 = j by omega, show hufRoot + 1 - j = hufRoot - j + 1 by omega,
            show hufRoot + 1 - (j + 1) = hufRoot - j by omega] at hnodes
          rw [hnodes, nodes_congr (u := t) fun k hk _ => ?_]
          rw [moveNode_node, if_neg (by omega)]

/-- A new internal node in a list leaves its leaves. -/
theorem leafNodes_insert {l l' r : List (BitVec 32 × Nat)} {x : BitVec 32 × Nat} (hx : x.1.msb = false) :
    leafNodes (l ++ (l' ++ x :: r)) = leafNodes (l ++ (l' ++ r)) := by
  simp [leafNodes, hx]

/-- A sorted insert puts the node between two parts of the list. -/
theorem orderedInsert_lighter (x : BitVec 32 × Nat) (l : List (BitVec 32 × Nat)) :
    ∃ l' r, l = l' ++ r ∧ l.orderedInsert Lighter x = l' ++ x :: r :=
  ⟨_, _, (List.takeWhile_append_dropWhile ..).symm, List.orderedInsert_eq_take_drop ..⟩

/-- The lists of a rebuild as the loop's invariant sees them: a new parent, no lighter than the placed nodes, joins the pending. -/
theorem Joined.insert {l l' leaves : List (BitVec 32 × Nat)} {w w' : Nat → Nat} {b m : Nat} (h : Joined (l ++ l') w b m leaves)
    (hm : b + 2 * m ≤ hufRoot) {x : BitVec 32 × Nat}
    (hx : x = (BitVec.ofNat 32 (b + 2 * m), w (b + 2 * m) + w (b + 2 * m + 1))) (hl : ∀ y ∈ l, y.2 ≤ x.2)
    (hw : ∀ i, i < b + 2 * m + 2 → w' i = w i) : Joined (l ++ l'.orderedInsert Lighter x) w' b (m + 1) leaves := by
  have hperm := List.perm_orderedInsert Lighter x l'
  obtain ⟨hpl, hpl', hcross⟩ := List.pairwise_append.mp h.rises
  refine h.add hm ?_ ?_ (List.pairwise_append.mpr ⟨hpl, ?_, fun y hy z hz => ?_⟩) hw
  · rw [← hx]
    exact (hperm.append_left l).trans List.perm_middle
  · obtain ⟨a, r, rfl, he⟩ := orderedInsert_lighter x l'
    rw [he]
    exact leafNodes_insert (hx ▸ (parentCode_toNat hm).2)
  · have htotal : Std.Total Lighter := ⟨fun x y => Nat.le_total x.2 y.2⟩
    have htrans : IsTrans _ Lighter := ⟨fun x y z => Nat.le_trans⟩
    exact List.Pairwise.orderedInsert x l' hpl'
  · rcases List.mem_cons.mp (hperm.mem_iff.mp hz) with rfl | hz
    · exact hl y hy
    · exact hcross y hy z hz

end Sys2Proof.Machine
end

section
/-! PROOFS. `HalfAndRebuild` (42_huffman.md R267): the turns of its loop, and the tree it ends with. -/

namespace Sys2Proof.Machine

/-- The weight of the pending nodes. -/
def Tree.pending (t : Tree) (nxt : Nat) : Nat := ((t.nodes nxt (hufRoot + 1 - nxt)).map Prod.snd).sum

theorem Tree.pending_eq_add (t : Tree) {nxt : Nat} (h : nxt ≤ hufRoot) : t.pending nxt = t.weight nxt + t.pending (nxt + 1) := by
  rw [pending, pending, show hufRoot + 1 - nxt = hufRoot + 1 - (nxt + 1) + 1 by omega, nodes_succ]
  rfl

theorem Tree.pending_congr {t u : Tree} {nxt : Nat} (h : ∀ k, nxt ≤ k → t.node k = u.node k) : t.pending nxt = u.pending nxt := by
  rw [pending, pending, nodes_congr fun k hk _ => h k hk]

/-- Nodes listed by rising weight. -/
theorem Tree.weight_le_of_nodes {t : Tree} {a n i j : Nat} (h : (t.nodes a n).Pairwise Lighter) (hi : a ≤ i) (hij : i < j)
    (hj : j < a + n) : t.weight i ≤ t.weight j := by
  have h := List.pairwise_iff_getElem.mp h (i - a) (j - a) (by simp; omega) (by simp; omega) (by omega)
  simpa [nodes, node, show a + (i - a) = i by omega, show a + (j - a) = j by omega] using h

theorem toNat_add_weights {t : Tree} {i j : Nat} (h : t.weight i + t.weight j < 2 ^ 16) :
    (t.w.get i + t.w.get j).toNat = t.weight i + t.weight j := by
  rw [BitVec.toNat_add]
  exact Nat.mod_eq_of_lt h

/-- The parent of the nodes `i` and `i + 1`. -/
def Tree.parentOf (t : Tree) (i : Nat) : BitVec 32 × Nat := (BitVec.ofNat 32 i, t.weight i + t.weight (i + 1))

section

variable {t : Tree} {b i nxt m : Nat} {leaves : List (BitVec 32 × Nat)}

/-- The placed nodes are no heavier than the last two together. -/
theorem Tree.Merging.le_parentOf (h : t.Merging b (i + 2) nxt m leaves) (hb : b ≤ i) :
    ∀ x ∈ t.nodes b (i + 2 - b), x.2 ≤ (t.parentOf i).2 := by
  intro x hx
  obtain ⟨k, h1, h2, rfl⟩ := mem_nodes.mp hx
  have hrises := (List.pairwise_append.mp h.joined.rises).1
  show t.weight k ≤ t.weight i + t.weight (i + 1)
  rcases Nat.lt_or_ge k (i + 1) with hk | hk
  · have := weight_le_of_nodes hrises h1 hk (by omega)
    omega
  · rw [show k = i + 1 by omega]
    omega

/-- The parent of the two placed nodes joins the pending ones. -/
theorem Tree.Merging.insertParent (h : t.Merging b (i + 2) (nxt + 2) m leaves) (hi : i = b + 2 * m) (hle : i + 2 ≤ nxt + 1)
    (hn : nxt + 2 ≤ hufRoot) (hw : t.weight i + t.weight (i + 1) < 2 ^ 16) :
    (t.insertParent 513 (nxt + 2) (t.w.get i + t.w.get (i + 1)) i).Merging b (i + 2) (nxt + 1) (m + 1) leaves
    ∧ (t.insertParent 513 (nxt + 2) (t.w.get i + t.w.get (i + 1)) i).pending (nxt + 1) =
      t.weight i + t.weight (i + 1) + t.pending (nxt + 2)
    ∧ (t.insertParent 513 (nxt + 2) (t.w.get i + t.w.get (i + 1)) i).tp = t.tp := by
  have hroot := hufRoot_eq
  obtain ⟨hlow, hnodes, hesc, htp⟩ := t.insertParent_spec (w := t.w.get i + t.w.get (i + 1)) (c := i) 513 (nxt + 2) (by omega) hn
    (by omega)
  generalize t.insertParent 513 (nxt + 2) (t.w.get i + t.w.get (i + 1)) i = u at *
  rw [show nxt + 2 - 1 = nxt + 1 by omega] at hlow hnodes
  rw [toNat_add_weights hw] at hnodes
  have hnode : ∀ k < i + 2, u.node k = t.node k := fun k hk => (hlow k (by omega)).1
  have hc : ∀ k < i + 2, u.c.get k = t.c.get k := fun k hk => congrArg Prod.fst (hnode k hk)
  have hlive : u.live b (i + 2) (nxt + 1) = t.nodes b (i + 2 - b)
      ++ (t.nodes (nxt + 2) (hufRoot + 1 - (nxt + 2))).orderedInsert Lighter (t.parentOf i) := by
    rw [live, hnodes, nodes_congr fun k _ hk => hnode k (by omega)]
    rfl
  refine ⟨⟨hlive ▸ h.joined.insert (by omega) (by rw [parentOf, hi]) (h.le_parentOf (by omega)) fun k hk => ?weights,
    fun q h1 h2 hm => ?linked, fun q h1 h2 he => ?escape⟩, ?total, htp⟩
  case weights => exact congrArg Prod.snd (hnode k (by omega))
  case linked =>
    rw [hc q h2] at hm
    obtain ⟨hlt, hp, hp'⟩ := h.linked q h1 h2 hm
    rw [child, hc q h2, (hlow _ (by change t.child q < _; omega)).2, (hlow _ (by change t.child q + 1 < _; omega)).2]
    exact ⟨hlt, hp, hp'⟩
  case escape =>
    rw [hesc]
    exact h.escape q h1 h2 (hc q h2 ▸ he)
  case total =>
    rw [pending, hnodes, ((List.perm_orderedInsert ..).map Prod.snd).sum_eq]
    rfl

/-- The end of the loop: the root over the pair `i`, `i + 1` (R267). -/
def Tree.crown (t : Tree) (w : BitVec 16) (i : Nat) : Tree :=
  let u := t.setParent hufRoot w i
  { u with p := ((u.p.set hufRoot hufNull).set i (nodeRef hufRoot)).set (i + 1) (nodeRef hufRoot) }

@[simp] theorem Tree.crown_tp (t : Tree) (w : BitVec 16) (i : Nat) : (t.crown w i).tp = t.tp := rfl

@[simp] theorem Tree.crown_esc (t : Tree) (w : BitVec 16) (i : Nat) : (t.crown w i).esc = t.esc := rfl

theorem Tree.crown_node (t : Tree) (w : BitVec 16) (i k : Nat) :
    (t.crown w i).node k = if k = hufRoot then (BitVec.ofNat 32 i, w.toNat) else t.node k :=
  t.setParent_node hufRoot i k

theorem Tree.crown_p_get (t : Tree) (w : BitVec 16) (i : Nat) {k : Nat} (hk : k < hufRoot) :
    (t.crown w i).p.get k = if k = i ∨ k = i + 1 then nodeRef hufRoot else t.p.get k := by
  simp only [crown, setParent_p, Store.get_set, if_neg hk.ne]
  by_cases h1 : k = i + 1
  · rw [if_pos h1, if_pos (.inr h1)]
  · by_cases h0 : k = i
    · rw [if_neg h1, if_pos h0, if_pos (.inl h0)]
    · rw [if_neg h1, if_neg h0, if_neg (by omega)]

/-- What a turn of the loop does. -/
theorem Tree.mergeFrom_succ (t : Tree) (fuel i nxt : Nat) : t.mergeFrom (fuel + 1) i nxt =
    if nxt + 2 ≤ hufRoot then ((t.place i nxt).insertParent 513 (nxt + 2)
      ((t.place i nxt).w.get i + (t.place i nxt).w.get (i + 1)) i).mergeFrom fuel (i + 2) (nxt + 1)
    else (t.place i nxt).crown ((t.place i nxt).w.get i + (t.place i nxt).w.get (i + 1)) i := rfl

@[simp] theorem Tree.place_tp (t : Tree) (i nxt : Nat) : (t.place i nxt).tp = t.tp := by simp [place]

/-- The two nodes placed are the first two pending. -/
theorem Tree.place_pending (t : Tree) (hi : i ≤ nxt) (hn : nxt < hufRoot) :
    (t.place i nxt).weight i + (t.place i nxt).weight (i + 1) + (t.place i nxt).pending (nxt + 2) = t.pending nxt := by
  have h0 : (t.place i nxt).node i = t.node nxt := by rw [t.place_node hi, if_pos rfl]
  have h1 : (t.place i nxt).node (i + 1) = t.node (nxt + 1) := by rw [t.place_node hi, if_neg (by omega), if_pos rfl]
  have hrest := pending_congr (t := t.place i nxt) (u := t) (nxt := nxt + 2) fun k hk => by
    rw [t.place_node hi, if_neg (by omega), if_neg (by omega)]
  rw [t.pending_eq_add hn.le, t.pending_eq_add (Nat.succ_le_of_lt hn), hrest,
    show (t.place i nxt).weight i = t.weight nxt from congrArg Prod.snd h0,
    show (t.place i nxt).weight (i + 1) = t.weight (nxt + 1) from congrArg Prod.snd h1, Nat.add_assoc]

/-- A turn with more than two nodes pending. -/
theorem Tree.Merging.turn (h : t.Merging b i nxt m leaves) (fuel : Nat) (hi : i = b + 2 * m) (hn : 2 * nxt = i + hufRoot)
    (hlt : nxt + 2 ≤ hufRoot) (hw : t.pending nxt < 2 ^ 16) :
    ∃ u : Tree, t.mergeFrom (fuel + 1) i nxt = u.mergeFrom fuel (i + 2) (nxt + 1) ∧ u.Merging b (i + 2) (nxt + 1) (m + 1) leaves
      ∧ u.pending (nxt + 1) = t.pending nxt ∧ u.tp = t.tp := by
  have hsum := t.place_pending (i := i) (nxt := nxt) (by omega) (by omega)
  obtain ⟨hm, hp, htp⟩ := (h.place hi (by omega) (by omega)).insertParent hi (by omega) hlt (by omega)
  exact ⟨_, by rw [mergeFrom_succ, if_pos hlt], hm, hp.trans hsum, htp.trans (t.place_tp i nxt)⟩

/-- With nothing pending the parent of the two placed nodes is the root. -/
theorem Tree.Merging.crown (h : t.Merging b (i + 2) (nxt + 2) m leaves) (hi : i = b + 2 * m) (hlast : i + 2 = hufRoot)
    (hn : nxt + 1 = hufRoot) (hw : t.weight i + t.weight (i + 1) < 2 ^ 16) :
    (t.crown (t.w.get i + t.w.get (i + 1)) i).Merging b (hufRoot + 1) (hufRoot + 1) (m + 1) leaves
    ∧ (t.crown (t.w.get i + t.w.get (i + 1)) i).node hufRoot = t.parentOf i := by
  obtain ⟨hcode, hmsb⟩ := Joined.parentCode_toNat (show i ≤ hufRoot by omega)
  have hnode := t.crown_node (t.w.get i + t.w.get (i + 1)) i
  have hp := fun k => t.crown_p_get (t.w.get i + t.w.get (i + 1)) i (k := k)
  have hesc := t.crown_esc (t.w.get i + t.w.get (i + 1)) i
  rw [toNat_add_weights hw] at hnode
  generalize t.crown (t.w.get i + t.w.get (i + 1)) i = u at *
  have hroot : u.node hufRoot = t.parentOf i := by rw [hnode, if_pos rfl, parentOf]
  have hlow : ∀ k < hufRoot, u.node k = t.node k := fun k hk => by rw [hnode, if_neg hk.ne]
  have hc : ∀ k < hufRoot, u.c.get k = t.c.get k := fun k hk => congrArg Prod.fst (hlow k hk)
  have hcroot : u.c.get hufRoot = BitVec.ofNat 32 i := congrArg Prod.fst hroot
  have hlive : u.live b (hufRoot + 1) (hufRoot + 1) = t.nodes b (i + 2 - b) ++ [t.parentOf i] := by
    rw [live, Nat.sub_self, show hufRoot + 1 - b = i + 2 - b + 1 by omega, nodes_concat, show b + (i + 2 - b) = hufRoot by omega,
      hroot, nodes_congr fun k _ hk => hlow k (by omega)]
    exact List.append_nil _
  have hj := h.joined
  rw [live, show hufRoot + 1 - (nxt + 2) = 0 by omega] at hj
  refine ⟨⟨hlive ▸ hj.insert (by omega) (by rw [parentOf, hi]) (h.le_parentOf (by omega)) fun k hk => ?weights,
    fun q h1 h2 hm => ?linked, fun q h1 h2 he => ?escape⟩, hroot⟩
  case weights => exact congrArg Prod.snd (hlow k (by omega))
  case linked =>
    rcases Nat.eq_or_lt_of_le (Nat.le_of_lt_succ h2) with rfl | hq
    · rw [child, hcroot, hcode, hp i (by omega), hp (i + 1) (by omega), if_pos (.inl rfl), if_pos (.inr rfl), nodeRef_toNat le_rfl]
      exact ⟨by omega, rfl, rfl⟩
    · rw [hc q hq] at hm
      obtain ⟨hlt, hpq, hpq'⟩ := h.linked q h1 (by omega) hm
      obtain ⟨j, hjm, hcq⟩ := hj.placed_child (q := q) (by omega) hm
      rw [child, hc q hq]
      change t.child q + 1 < q ∧ (u.p.get (t.child q)).toNat = q ∧ (u.p.get (t.child q + 1)).toNat = q
      rw [hp _ (by omega), hp _ (by omega), if_neg (by omega), if_neg (by omega)]
      exact ⟨hlt, hpq, hpq'⟩
  case escape =>
    rcases Nat.eq_or_lt_of_le (Nat.le_of_lt_succ h2) with rfl | hq
    · rw [← hcroot, he] at hmsb
      exact absurd hmsb (by decide)
    · rw [hesc]
      exact h.escape q h1 (by omega) (hc q hq ▸ he)

/-- The last turn: the two nodes left become the children of the root. -/
theorem Tree.Merging.last (h : t.Merging b i nxt m leaves) (fuel : Nat) (hi : i = b + 2 * m) (hn : 2 * nxt = i + hufRoot)
    (hlast : nxt + 1 = hufRoot) (hw : t.pending nxt < 2 ^ 16) :
    (t.mergeFrom (fuel + 1) i nxt).Merging b (hufRoot + 1) (hufRoot + 1) (m + 1) leaves
    ∧ ((t.mergeFrom (fuel + 1) i nxt).c.get hufRoot).msb = false
    ∧ (t.mergeFrom (fuel + 1) i nxt).weight hufRoot = t.pending nxt
    ∧ (t.mergeFrom (fuel + 1) i nxt).tp = t.tp := by
  have hsum := t.place_pending (i := i) (nxt := nxt) (by omega) (by omega)
  have hnone : (t.place i nxt).pending (nxt + 2) = 0 := by
    rw [pending, show hufRoot + 1 - (nxt + 2) = 0 by omega]
    rfl
  obtain ⟨hm, hroot⟩ := (h.place hi (by omega) (by omega)).crown hi (by omega) hlast (by omega)
  obtain ⟨hc, hweight⟩ := Prod.ext_iff.mp hroot
  rw [mergeFrom_succ, if_neg (by omega)]
  refine ⟨hm, ?_, hweight.trans ?_, (crown_tp ..).trans (t.place_tp i nxt)⟩
  · rw [show (Tree.crown _ _ _).c.get hufRoot = BitVec.ofNat 32 i from hc]
    exact (Joined.parentCode_toNat (by omega)).2
  · rw [← hsum, hnone]
    rfl

/-- What a list of leaves needs to be the leaves of a tree. -/
structure LeafList (leaves : List (BitVec 32 × Nat)) : Prop where
  codes : ∀ x ∈ leaves, x.1.msb = true ∧ isLeaf x.1
  counted : ∀ x ∈ leaves, 1 ≤ x.2
  rises : leaves.Pairwise Lighter
  escape : ∃ x ∈ leaves, x.1 = hufEscape
  oneEscape : ((leaves.map Prod.fst).filter pointsBack).Nodup

/-- The tree when everything is placed. -/
theorem Tree.Merging.filled (h : t.Merging b (hufRoot + 1) (hufRoot + 1) m leaves) (htp : t.tp.toNat = b)
    (hb : b ≤ 0x1FE ∧ b % 2 = 0) (hm : b + 2 * m = hufRoot) (hroot : (t.c.get hufRoot).msb = false) (hl : LeafList leaves)
    (hmax : t.weight hufRoot ≤ hufMax) : t.Filled ∧ t.leaves = leaves := by
  have hrootv := hufRoot_eq
  have hj := h.joined
  have hlive : t.live b (hufRoot + 1) (hufRoot + 1) = t.nodes b (hufRoot + 1 - b) := by
    rw [live, Nat.sub_self]
    exact List.append_nil _
  rw [hlive] at hj
  have hmem : ∀ q, b ≤ q → q ≤ hufRoot → t.node q ∈ t.nodes b (hufRoot + 1 - b) := fun q h1 h2 =>
    mem_nodes.mpr ⟨q, h1, by omega, rfl⟩
  have hleaf : ∀ q, b ≤ q → q ≤ hufRoot → (t.c.get q).msb = true → t.node q ∈ leaves := fun q h1 h2 h3 =>
    hj.leaves ▸ List.mem_filter.mpr ⟨hmem q h1 h2, h3⟩
  have hchild : ∀ q, b ≤ q → q ≤ hufRoot → (t.c.get q).msb = false → ∃ j < m, t.child q = b + 2 * j := fun q h1 h2 h3 =>
    (hj.children _).mp ⟨_, hmem q h1 h2, h3, rfl⟩
  refine ⟨⟨htp ▸ hb, hroot, ?leaf, ?inner, ?parent, ?counted, ?rises, hmax, ?escape, ?oneEscape⟩, ?leaves⟩
  all_goals try rw [htp]
  case leaf => exact fun q h1 h2 h3 => (hl.codes _ (hleaf q h1 h2.le h3)).2
  case inner =>
    intro q h1 h2 h3
    obtain ⟨j, -, hc⟩ := hchild q h1 h2 h3
    obtain ⟨hlt, hp, hp'⟩ := h.linked q h1 (by omega) h3
    exact ⟨by omega, by omega, hlt, hj.sums _ (hmem q h1 h2) h3, hp, hp'⟩
  case parent =>
    intro i h1 h2
    obtain ⟨x, hx, hxm, hxc⟩ := (hj.children (i - i % 2)).mpr ⟨(i - b) / 2, by omega, by omega⟩
    obtain ⟨q, hq1, hq2, rfl⟩ := mem_nodes.mp hx
    obtain ⟨hlt, hp, hp'⟩ := h.linked q hq1 (by omega) hxm
    have hcq : t.child q = i - i % 2 := hxc
    have hpi : (t.p.get i).toNat = q := by
      rcases Nat.mod_two_eq_zero_or_one i with hi | hi
      · rwa [show i = t.child q by omega]
      · rwa [show i = t.child q + 1 by omega]
    rw [hpi]
    exact ⟨by omega, by omega, hxm, hcq⟩
  case counted =>
    cases hm0 : (t.c.get b).msb with
    | true => exact hl.counted _ (hleaf b le_rfl (by omega) hm0)
    | false =>
      obtain ⟨j, -, hc⟩ := hchild b le_rfl (by omega) hm0
      have := (h.linked b le_rfl (by omega) hm0).1
      omega
  case rises => exact fun i h1 h2 => weight_le_of_nodes hj.rises h1 (Nat.lt_succ_self i) (by omega)
  case escape =>
    obtain ⟨x, hx, hxe⟩ := hl.escape
    rw [← hj.leaves] at hx
    obtain ⟨q, hq1, hq2, rfl⟩ := mem_nodes.mp (List.mem_filter.mp hx).1
    have hesc := h.escape q hq1 (by omega) hxe
    have hne : q ≠ hufRoot := fun he => by
      rw [← he, show t.c.get q = hufEscape from hxe] at hroot
      exact absurd hroot (by decide)
    rw [hesc]
    exact ⟨hq1, by omega, hxe⟩
  case oneEscape => exact fun i h1 h2 h3 => (h.escape i h1 (by omega) h3).symm
  case leaves =>
    rw [leaves_eq, htp, ← hj.leaves, show hufRoot + 1 - b = hufRoot - b + 1 by omega, nodes_concat, leafNodes_append,
      show b + (hufRoot - b) = hufRoot by omega]
    simp [leafNodes, node, hroot]

/-- The merge loop builds a tree over its leaves. -/
theorem Tree.Merging.mergeFrom (h : t.Merging b i nxt m leaves) (fuel : Nat) (hi : i = b + 2 * m) (hn : 2 * nxt = i + hufRoot)
    (hlt : nxt < hufRoot) (hf : hufRoot ≤ nxt + fuel) (htp : t.tp.toNat = b) (hb : b ≤ 0x1FE ∧ b % 2 = 0) (hl : LeafList leaves)
    (hmax : t.pending nxt ≤ hufMax) :
    (t.mergeFrom fuel i nxt).Filled ∧ (t.mergeFrom fuel i nxt).leaves = leaves ∧ (t.mergeFrom fuel i nxt).tp = t.tp := by
  have hw : t.pending nxt < 2 ^ 16 := by unfold hufMax at hmax; omega
  induction fuel generalizing t i nxt m with
  | zero => omega
  | succ fuel ih =>
    rcases Nat.eq_or_lt_of_le hlt with hlast | hmore
    · obtain ⟨hm, hroot, hweight, htp'⟩ := h.last fuel hi hn hlast hw
      obtain ⟨hfilled, hleaves⟩ := hm.filled (by rw [htp', htp]) hb (by omega) hroot hl (hweight ▸ hmax)
      exact ⟨hfilled, hleaves, htp'⟩
    · obtain ⟨u, he, hu, hp, htp'⟩ := h.turn fuel hi hn hmore hw
      obtain ⟨hfilled, hleaves, htp''⟩ :=
        ih hu (by omega) (by omega) (by omega) (by omega) (by rw [htp', htp]) (hp ▸ hmax) (hp ▸ hw)
      rw [he]
      exact ⟨hfilled, hleaves, htp''.trans htp'⟩

end

end Sys2Proof.Machine
end

section
/-! PROOFS. The operations of R265 to R267 on a tree that meets the invariants of R285: the invariants hold again, and the leaves
have changed as the rules say. -/

namespace Sys2Proof.Machine

/-! ## HalfAndRebuild (R267) -/

theorem Tree.mem_leaves {t : Tree} {x : BitVec 32 × Nat} :
    x ∈ t.leaves ↔ ∃ i, t.tp.toNat ≤ i ∧ i < hufRoot ∧ (t.c.get i).msb = true ∧ t.node i = x := by
  rw [leaves_eq, leafNodes, List.mem_filter, mem_nodes]
  constructor
  · rintro ⟨⟨i, h1, h2, rfl⟩, hm⟩
    exact ⟨i, h1, by omega, hm, rfl⟩
  · rintro ⟨i, h1, h2, hm, rfl⟩
    exact ⟨⟨i, h1, by omega, rfl⟩, hm⟩

/-- The leaves of a tree. -/
theorem Tree.Growing.leafList {t : Tree} (h : t.Growing hufRoot) : LeafList t.leaves := by
  refine ⟨fun x hx => ?codes, fun x hx => ?counted, ?rises, ?escape, ?oneEscape⟩
  case codes =>
    obtain ⟨i, h1, h2, hm, rfl⟩ := mem_leaves.mp hx
    exact ⟨hm, h.linked.leaf i h1 h2 hm⟩
  case counted =>
    obtain ⟨i, h1, h2, -, rfl⟩ := mem_leaves.mp hx
    have := h.weighed.pos h1 h2.le
    rwa [counts_of_ne t h2.ne] at this
  case rises =>
    refine List.Pairwise.map (R := fun i j => t.weight i ≤ t.weight j) _ (fun _ _ hij => hij) ?_
    refine List.Pairwise.filter _ (List.Pairwise.imp_of_mem (fun {i j} hi hj hij => ?_) (List.pairwise_lt_range' ..))
    obtain ⟨hi, -⟩ := List.mem_range'_1.mp hi
    obtain ⟨-, hj⟩ := List.mem_range'_1.mp hj
    have := h.weighed.mono hi hij.le (by omega)
    rwa [counts_of_ne t (by omega), counts_of_ne t (by omega)] at this
  case escape =>
    obtain ⟨h1, h2, he⟩ := h.linked.escape
    exact ⟨t.node t.esc.toNat, mem_leaves.mpr ⟨_, h1, h2, by rw [he]; rfl, rfl⟩, he⟩
  case oneEscape =>
    rw [leaves, List.map_map, List.filter_map]
    refine List.Nodup.map_on (fun i hi j hj hij => ?_) (((List.nodup_range' ..).filter _).filter _)
    obtain ⟨hi, hpi⟩ := List.mem_filter.mp hi
    obtain ⟨hi, hmi⟩ := List.mem_filter.mp hi
    obtain ⟨hj, -⟩ := List.mem_filter.mp hj
    obtain ⟨hj, -⟩ := List.mem_filter.mp hj
    have hij : t.c.get i = t.c.get j := hij
    have hmi : (t.c.get i).msb = true := hmi
    have he : t.c.get i = hufEscape := by simpa [pointsBack, hmi] using hpi
    have hi := List.mem_range'_1.mp hi
    have hj := List.mem_range'_1.mp hj
    rw [h.linked.oneEscape i hi.1 (by omega) he, h.linked.oneEscape j hj.1 (by omega) (hij ▸ he)]

/-- Halving keeps what a list of leaves needs. -/
theorem LeafList.halve {l : List (BitVec 32 × Nat)} (h : LeafList l) : LeafList (l.map halveLeaf) where
  codes x hx := by
    obtain ⟨y, hy, rfl⟩ := List.mem_map.mp hx
    exact h.codes y hy
  counted x hx := by
    obtain ⟨y, hy, rfl⟩ := List.mem_map.mp hx
    have := h.counted y hy
    show 1 ≤ (y.2 + 1) / 2
    omega
  rises := h.rises.map _ fun x y hxy => by
    have hxy : x.2 ≤ y.2 := hxy
    show (x.2 + 1) / 2 ≤ (y.2 + 1) / 2
    omega
  escape := by
    obtain ⟨x, hx, he⟩ := h.escape
    exact ⟨halveLeaf x, List.mem_map_of_mem hx, he⟩
  oneEscape := by
    rw [List.map_map]
    exact h.oneEscape

/-- Halving leaves about half of the weight. -/
theorem sum_halve_le (l : List (BitVec 32 × Nat)) :
    2 * ((l.map halveLeaf).map Prod.snd).sum ≤ (l.map Prod.snd).sum + l.length := by
  induction l with
  | nil => exact le_rfl
  | cons x l ih =>
    have hx : (halveLeaf x).2 = (x.2 + 1) / 2 := rfl
    simp only [List.map_cons, List.sum_cons, List.length_cons, hx]
    omega

/-- A list of leaves is what the merge loop starts from. -/
theorem LeafList.joined {l : List (BitVec 32 × Nat)} (h : LeafList l) (w : Nat → Nat) (b : Nat) : Joined l w b 0 l where
  leaves := List.filter_eq_self.mpr fun x hx => (h.codes x hx).1
  rises := h.rises
  children c := by
    constructor
    · rintro ⟨x, hx, hm, -⟩
      rw [(h.codes x hx).1] at hm
      cases hm
    · rintro ⟨j, hj, -⟩
      omega
  unique := h.oneEscape
  sums x hx hm := by
    rw [(h.codes x hx).1] at hm
    cases hm

/-- `HalfAndRebuild` (R267): the leaves halved, in their order, under a tree of the invariants well below the ceiling. -/
theorem Tree.Growing.halfAndRebuild {t : Tree} (h : t.Growing hufRoot) : t.halfAndRebuild.Filled
    ∧ t.halfAndRebuild.leaves = t.leaves.map halveLeaf ∧ t.halfAndRebuild.tp = t.tp
    ∧ t.halfAndRebuild.weight hufRoot < hufMax := by
  have hroot := hufRoot_eq
  have htp := h.linked.tp_lt
  have hlow := h.linked.low
  have hmax : hufMax = 0x4000 := rfl
  have hlen := h.linked.length_leaves
  have hl := h.leafList.halve
  have hrootw := h.weighed.weight_le hufRoot htp.le le_rfl
  have hhalf := sum_halve_le t.leaves
  rw [← h.root_weight] at hhalf
  obtain ⟨hcount, hnodes, htp'⟩ := t.packLeaves_spec t.tp.toNat (hufRoot - t.tp.toNat) hufRoot (by omega) le_rfl
    fun i h1 h2 => by have := h.weighed.weight_le i h1 (by omega); omega
  rw [← leaves_eq] at hcount hnodes
  rw [Nat.sub_self, show t.nodes (hufRoot + 1) 0 = [] from rfl, List.append_nil] at hnodes
  show (Tree.mergeFrom _ 513 _ _).Filled ∧ (Tree.mergeFrom _ 513 _ _).leaves = _ ∧ (Tree.mergeFrom _ 513 _ _).tp = _
    ∧ (Tree.mergeFrom _ 513 _ _).weight hufRoot < _
  generalize t.packLeaves t.tp.toNat (hufRoot - t.tp.toNat) hufRoot = r at *
  rw [show hufRoot - r.2 = hufRoot + 1 - (r.2 + 1) by omega] at hnodes
  have hpending : r.1.pending (r.2 + 1) = ((t.leaves.map halveLeaf).map Prod.snd).sum := by rw [pending, hnodes]
  have hlive : r.1.live t.tp.toNat t.tp.toNat (r.2 + 1) = t.leaves.map halveLeaf := by
    rw [live, hnodes, Nat.sub_self]
    rfl
  have hmerging : r.1.Merging t.tp.toNat t.tp.toNat (r.2 + 1) 0 (t.leaves.map halveLeaf) :=
    ⟨hlive ▸ hl.joined _ _, fun q h1 h2 => absurd h1 (by omega), fun q h1 h2 => absurd h1 (by omega)⟩
  obtain ⟨hfilled, hleaves, htp''⟩ := hmerging.mergeFrom 513 rfl (by omega) (by omega) (by omega) (by rw [htp']) hlow hl
    (by omega)
  exact ⟨hfilled, hleaves, htp''.trans htp', by rw [hfilled.growing.root_weight, hleaves]; omega⟩

/-! ## Increase (R265) -/

/-- `W[e] <- W[e] + 1`. -/
def Tree.bump (t : Tree) (e : Nat) : Tree := { t with w := t.w.set e (t.w.get e + 1) }

section

variable {t : Tree} {e : Nat} (h : t.Filled) (he : t.tp.toNat ≤ e ∧ e < hufRoot) (hm : (t.c.get e).msb = true)
include h he

theorem Tree.Filled.bump_weight (i : Nat) : (t.bump e).weight i = t.weight i + if i = e then 1 else 0 := by
  have hw := h.weighed.weight_le e he.1 he.2.le
  have hmax : hufMax = 0x4000 := rfl
  split
  · next hi =>
    subst hi
    have hlt : (t.w.get i).toNat ≤ hufMax + 1 := hw
    rw [Tree.weight, bump, Store.get_set_same, BitVec.toNat_add]
    exact Nat.mod_eq_of_lt (by simp; omega)
  · next hi => simp [bump, weight, Store.get_set, hi]

include hm

/-- A leaf that has grown by one. -/
theorem Tree.Filled.bump_growing : (t.bump e).Growing e := by
  have hl := h.linked
  have hcounts : ∀ i, (t.bump e).counts e i = t.weight i := fun i => by
    unfold counts
    rw [h.bump_weight he]
    split_ifs
    · omega
    · rfl
  refine ⟨⟨hl.low, hl.root, hl.leaf, hl.child, hl.ofChild, hl.parent, hl.escape, hl.oneEscape⟩,
    ⟨?counted, fun i h1 h2 => ?rises, ?ceiling, fun q h1 h2 h3 => ?sum⟩, ⟨he.1, he.2.le⟩⟩
  case counted => rw [hcounts]; exact h.counted
  case rises => rw [hcounts, hcounts]; exact h.rises i h1 h2
  case ceiling => rw [hcounts]; exact h.ceiling
  case sum =>
    have hq : q ≠ e := by
      rintro rfl
      exact absurd hm (by rw [show t.c.get q = (t.bump q).c.get q from rfl, h3]; decide)
    obtain ⟨-, -, -, hw, -⟩ := h.inner q h1 h2 h3
    rw [hcounts, hcounts, h.bump_weight he, if_neg hq]
    exact hw

/-- The leaves with the weight of one of them raised. -/
theorem Tree.Filled.leaves_bump :
    (t.bump e).leaves.Perm ((t.c.get e, t.weight e + 1) :: t.leaves.erase (t.c.get e, t.weight e)) := by
  have hmem : e ∈ (List.range' t.tp.toNat (hufRoot - t.tp.toNat)).filter (fun i => isLeafCode (t.c.get i)) :=
    List.mem_filter.mpr ⟨List.mem_range'_1.mpr ⟨he.1, by omega⟩, hm⟩
  have hnodup := (List.nodup_range' (s := t.tp.toNat) (n := hufRoot - t.tp.toNat)).filter (fun i => isLeafCode (t.c.get i))
  have hnew : (t.bump e).leaves = ((List.range' t.tp.toNat (hufRoot - t.tp.toNat)).filter
      (fun i => isLeafCode (t.c.get i))).map (t.bump e).node := rfl
  have hold : t.leaves = ((List.range' t.tp.toNat (hufRoot - t.tp.toNat)).filter
      (fun i => isLeafCode (t.c.get i))).map t.node := rfl
  rw [hnew, hold]
  generalize (List.range' t.tp.toNat (hufRoot - t.tp.toNat)).filter (fun i => isLeafCode (t.c.get i)) = idx at hmem hnodup
  have hfirst : (t.bump e).node e = (t.c.get e, t.weight e + 1) := Prod.ext rfl (by
    show (t.bump e).weight e = _
    rw [h.bump_weight he, if_pos rfl])
  have hrest : (idx.erase e).map (t.bump e).node = (idx.erase e).map t.node := List.map_congr_left fun i hi =>
    Prod.ext rfl (by
      show (t.bump e).weight i = _
      rw [h.bump_weight he, if_neg (hnodup.mem_erase_iff.mp hi).1]
      rfl)
  have hsplit := List.perm_cons_erase hmem
  have hnewsplit := hsplit.map (t.bump e).node
  have holdsplit := (hsplit.map t.node).erase (t.node e)
  rw [List.map_cons, hfirst, hrest] at hnewsplit
  rw [List.map_cons, List.erase_cons_head] at holdsplit
  exact hnewsplit.trans (holdsplit.symm.cons _)

/-- What `Increase` leaves before its test of the ceiling. -/
theorem Tree.Filled.normalize_bump : ((t.bump e).normalize e).Growing hufRoot
    ∧ ((t.bump e).normalize e).leaves.Perm ((t.c.get e, t.weight e + 1) :: t.leaves.erase (t.c.get e, t.weight e))
    ∧ ((t.bump e).normalize e).tp = t.tp ∧ ((t.bump e).normalize e).weight hufRoot = t.weight hufRoot + 1 := by
  obtain ⟨hg, hperm, htp⟩ := (h.bump_growing he hm).normalize
  have hleaves := hperm.trans (h.leaves_bump he hm)
  refine ⟨hg, hleaves, htp, ?_⟩
  have hmem : (t.c.get e, t.weight e) ∈ t.leaves := mem_leaves.mpr ⟨e, he.1, he.2, hm, rfl⟩
  have hold := ((List.perm_cons_erase hmem).map Prod.snd).sum_eq
  have hnew := (hleaves.map Prod.snd).sum_eq
  rw [List.map_cons, List.sum_cons] at hold hnew
  rw [hg.root_weight, h.growing.root_weight]
  omega

/-- `Increase` below the ceiling. -/
theorem Tree.Filled.increase_below (hmax : t.weight hufRoot + 1 < hufMax) : t.increase e = (t.bump e).normalize e := by
  obtain ⟨-, -, -, hw⟩ := h.normalize_bump he hm
  exact if_neg (by change ¬ hufMax ≤ ((t.bump e).normalize e).weight hufRoot; omega)

/-- `Increase` at the ceiling. -/
theorem Tree.Filled.increase_at (hmax : hufMax ≤ t.weight hufRoot + 1) :
    t.increase e = ((t.bump e).normalize e).halfAndRebuild := by
  obtain ⟨-, -, -, hw⟩ := h.normalize_bump he hm
  exact if_pos (by change hufMax ≤ ((t.bump e).normalize e).weight hufRoot; omega)

/-- `Increase` (R265) keeps the invariants and ends below the ceiling. -/
theorem Tree.Filled.increase : (t.increase e).Filled ∧ (t.increase e).weight hufRoot < hufMax ∧ (t.increase e).tp = t.tp := by
  obtain ⟨hg, -, htp, hw⟩ := h.normalize_bump he hm
  rcases Nat.lt_or_ge (t.weight hufRoot + 1) hufMax with hmax | hmax
  · rw [h.increase_below he hm hmax]
    exact ⟨hg.filled (by omega), by omega, htp⟩
  · rw [h.increase_at he hm hmax]
    obtain ⟨hfilled, -, htp', hlt⟩ := hg.halfAndRebuild
    exact ⟨hfilled, hlt, htp'.trans htp⟩

end

/-! ## AddNewEntry (R266) -/

theorem leafCode_spec (v : Byte) : (leafCode v).msb = true ∧ leafCode v ≠ hufEscape := by revert v; decide

/-- The new leaf of R266 at `i`, the lowest node from now on. -/
def Tree.enter (t : Tree) (v : Byte) (i : Nat) : Tree :=
  { t with
    tp := nodeRef i
    w := t.w.set i 1
    c := t.c.set i (leafCode v)
    sym := t.sym.set v.toNat (nodeRef i) }

/-- The lightest node moved down one slot, and the new internal node in its place (R266). -/
def Tree.split (t : Tree) (i : Nat) : Tree :=
  let u := (t.moveNode (i + 1) (i + 2)).fix (i + 1)
  { u with
    w := u.w.set (i + 2) (1 + u.w.get (i + 1))
    p := ((u.p.set (i + 2) (u.p.get (i + 1))).set i (nodeRef (i + 2))).set (i + 1) (nodeRef (i + 2))
    c := u.c.set (i + 2) (BitVec.ofNat 32 i) }

/-- The full tree's reuse of the lightest leaf but the escape (R266). -/
def Tree.reuse (t : Tree) (v : Byte) (i : Nat) : Tree :=
  { t with c := t.c.set i (leafCode v), sym := t.sym.set v.toNat (nodeRef i) }

theorem Tree.addNewEntry_first {t : Tree} (h : 0 < t.tp.toNat) (hc : t.c.get hufRoot = 0x8000) (v : Byte) :
    t.addNewEntry v = (t.enter v (t.tp.toNat - 2)).addFirst (t.tp.toNat - 2) := by
  simp only [addNewEntry, if_pos h, hc, beq_self_eq_true, if_true]
  rfl

theorem Tree.addNewEntry_more {t : Tree} (h : 0 < t.tp.toNat) (hc : t.c.get hufRoot ≠ 0x8000) (v : Byte) :
    t.addNewEntry v = ((t.enter v (t.tp.toNat - 2)).split (t.tp.toNat - 2)).normalize (t.tp.toNat - 2 + 2) := by
  simp only [addNewEntry, if_pos h, beq_false_of_ne hc, Bool.false_eq_true, if_false]
  rfl

theorem Tree.addNewEntry_full {t : Tree} (h : t.tp.toNat = 0) (v : Byte) :
    t.addNewEntry v = t.reuse v (if t.c.get 0 = hufEscape then 1 else 0) := by
  simp only [addNewEntry, h, Nat.lt_irrefl, if_false, Nat.zero_add]
  rfl

/-- The two lowest nodes of a tree are leaves. -/
theorem Tree.Linked.low_leaf {t : Tree} (h : t.Linked) {i : Nat} (hi : t.tp.toNat ≤ i) (hi' : i ≤ t.tp.toNat + 1) :
    (t.c.get i).msb = true := by
  have htp := h.tp_lt
  cases hm : (t.c.get i).msb with
  | true => rfl
  | false =>
    have := h.child i hi (by omega) hm
    omega

section

variable {t : Tree} (h : t.Filled) (v : Byte)
include h

theorem Tree.Filled.root_ne_null : t.c.get hufRoot ≠ 0x8000 := by
  intro hc
  have hroot := hufRoot_eq
  have hc' : t.child hufRoot = 0x8000 := by rw [child, hc]; rfl
  have := h.linked.root_child
  omega

/-- The full tree with its lightest leaf reused (R266). -/
theorem Tree.Filled.reuse (htp : t.tp.toNat = 0) : (t.reuse v (if t.c.get 0 = hufEscape then 1 else 0)).Filled := by
  have hroot := hufRoot_eq
  have hleaf : (t.c.get (if t.c.get 0 = hufEscape then 1 else 0)).msb = true :=
    h.linked.low_leaf (by omega) (by split <;> omega)
  have hne : t.c.get (if t.c.get 0 = hufEscape then 1 else 0) ≠ hufEscape := by
    split
    · next h0 =>
      intro h1
      have h0 := h.oneEscape 0 (by omega) (by omega) h0
      have h1 := h.oneEscape 1 (by omega) (by omega) h1
      omega
    · next h0 => exact h0
  have hi : (if t.c.get 0 = hufEscape then 1 else 0) < hufRoot := by split <;> omega
  generalize (if t.c.get 0 = hufEscape then 1 else 0) = i at hleaf hne hi
  obtain ⟨hcode, hcodee⟩ := leafCode_spec v
  have hc : ∀ q, (t.reuse v i).c.get q = if q = i then leafCode v else t.c.get q := fun q => Store.get_set ..
  have hinner : ∀ q, ((t.reuse v i).c.get q).msb = false → (t.reuse v i).c.get q = t.c.get q ∧ (t.c.get q).msb = false := by
    intro q hq
    rw [hc] at hq ⊢
    split_ifs at hq ⊢ with hqi
    · rw [hcode] at hq; cases hq
    · exact ⟨rfl, hq⟩
  have hkept : ∀ q, (t.c.get q).msb = false → (t.reuse v i).c.get q = t.c.get q := fun q hq => by
    rw [hc, if_neg]
    rintro rfl
    rw [hleaf] at hq; cases hq
  refine ⟨h.low, by rw [hkept _ h.root]; exact h.root, fun q h1 h2 h3 => ?leaf, fun q h1 h2 h3 => ?inner, fun k h1 h2 => ?parent,
    h.counted, h.rises, h.ceiling, ?escape, fun k h1 h2 h3 => ?oneEscape⟩
  case leaf =>
    rw [hc] at h3 ⊢
    split_ifs at h3 ⊢
    · exact .inr ⟨v, rfl⟩
    · exact h.leaf q h1 h2 h3
  case inner =>
    obtain ⟨he, hm⟩ := hinner q h3
    rw [child, he]
    exact h.inner q h1 h2 hm
  case parent =>
    obtain ⟨ha, hb, hm, hd⟩ := h.parent k h1 h2
    have hp := hkept _ hm
    change k < (t.p.get k).toNat ∧ (t.p.get k).toNat ≤ hufRoot ∧ ((t.reuse v i).c.get (t.p.get k).toNat).msb = false
      ∧ ((t.reuse v i).c.get (t.p.get k).toNat).toNat = k - k % 2
    rw [hp]
    exact ⟨ha, hb, hm, hd⟩
  case escape =>
    obtain ⟨ha, hb, he⟩ := h.escape
    refine ⟨ha, hb, ?_⟩
    change (t.reuse v i).c.get t.esc.toNat = _
    rw [hc, if_neg (fun (hei : t.esc.toNat = i) => hne (hei ▸ he)), he]
  case oneEscape =>
    rw [hc] at h3
    split_ifs at h3
    · exact absurd h3 hcodee
    · exact h.oneEscape k h1 h2 h3

end

end Sys2Proof.Machine
end

section
/-! PROOFS. `AddNewEntry` (42_huffman.md R266) on a tree that is not full: the pair of the new leaf and the lightest node takes the
lightest node's place, which so grows by one; on an empty tree the first leaf and the escape leaf come under the root. -/

namespace Sys2Proof.Machine

namespace Tree

/-! ## What the steps leave at each node -/

theorem enter_node (t : Tree) (v : Byte) (i k : Nat) :
    (t.enter v i).node k = if k = i then (leafCode v, 1) else t.node k := by
  split
  · next h => subst h; simp [node, weight, enter]
  · next h => simp [node_eq_iff, enter, Store.get_set, h]

theorem split_node (t : Tree) (i k : Nat) : (t.split i).node k =
    if k = i + 2 then (BitVec.ofNat 32 i, (1 + t.w.get (i + 2)).toNat) else if k = i + 1 then t.node (i + 2) else t.node k := by
  split_ifs with h2 h1
  · subst h2; simp [node, weight, split]
  · subst h1; simp [node_eq_iff, split, Store.get_set]
  · simp [node_eq_iff, split, Store.get_set, h1, h2]

/-- A leaf moved down points no child anywhere. -/
theorem split_p_get {t : Tree} {i : Nat} (hleaf : (t.c.get (i + 2)).msb = true) (k : Nat) :
    (t.split i).p.get k = if k = i ∨ k = i + 1 then nodeRef (i + 2) else t.p.get k := by
  have hfix : ∀ j, ((t.moveNode (i + 1) (i + 2)).fix (i + 1)).p.get j = (t.moveNode (i + 1) (i + 2)).p.get j := fun j => by
    rw [fix_p_get, if_neg]
    simp [hleaf]
  simp only [split, Store.get_set, hfix, moveNode_p]
  by_cases h1 : k = i + 1
  · simp [h1]
  · by_cases h0 : k = i
    · simp [h0]
    · by_cases h2 : k = i + 2
      · simp [h2]
      · simp [h0, h1, h2]

theorem split_esc (t : Tree) (i : Nat) :
    (t.split i).esc = if t.c.get (i + 2) = hufEscape then nodeRef (i + 1) else t.esc := by
  simp [split, fix_esc]

@[simp] theorem split_tp (t : Tree) (i : Nat) : (t.split i).tp = t.tp := by simp [split]

end Tree

/-! ## A further symbol -/

/-- `u` is `t` with the leaf of symbol `v` at `i` and the lightest node of `t` at `i + 1`, under a new parent in its old place. -/
structure Tree.PairAdded (t u : Tree) (v : Byte) (i : Nat) : Prop where
  tp : t.tp.toNat = i + 2 ∧ u.tp.toNat = i
  new : u.node i = (leafCode v, 1)
  moved : u.node (i + 1) = t.node (i + 2)
  parent : u.node (i + 2) = (BitVec.ofNat 32 i, t.weight (i + 2) + 1)
  rest : ∀ k, i + 3 ≤ k → u.node k = t.node k
  p : ∀ k, u.p.get k = if k = i ∨ k = i + 1 then nodeRef (i + 2) else t.p.get k
  esc : u.esc = if t.c.get (i + 2) = hufEscape then nodeRef (i + 1) else t.esc

/-- The steps of R266 before `Normalize`. -/
theorem Tree.Filled.split_pairAdded {t : Tree} (h : t.Filled) (v : Byte) {i : Nat} (hi : t.tp.toNat = i + 2) :
    t.PairAdded ((t.enter v i).split i) v i := by
  have hroot := hufRoot_eq
  have hlow := h.low.1
  have hleaf : (t.c.get (i + 2)).msb = true := h.linked.low_leaf hi.le (by omega)
  have hkeep : (t.enter v i).c.get (i + 2) = t.c.get (i + 2) := Store.get_set_other _ _ (by omega)
  have hadd : (1 + (t.enter v i).w.get (i + 2)).toNat = t.weight (i + 2) + 1 := by
    have hw : (t.w.get (i + 2)).toNat ≤ hufMax + 1 := h.weighed.weight_le (i + 2) hi.le (by omega)
    have hmax : hufMax = 0x4000 := rfl
    rw [enter, Store.get_set_other _ _ (by omega), BitVec.toNat_add, Nat.add_comm]
    exact Nat.mod_eq_of_lt (by simp; omega)
  refine ⟨⟨hi, ?tp⟩, ?new, ?moved, ?parent, fun k hk => ?rest, split_p_get (hkeep ▸ hleaf), ?esc⟩
  case tp => rw [split_tp]; exact nodeRef_toNat (by omega)
  case new => rw [split_node, if_neg (by omega), if_neg (by omega), enter_node, if_pos rfl]
  case moved => rw [split_node, if_neg (by omega), if_pos rfl, enter_node, if_neg (by omega)]
  case parent => rw [split_node, if_pos rfl, hadd]
  case rest => rw [split_node, if_neg (by omega), if_neg (by omega), enter_node, if_neg (by omega)]
  case esc => rw [split_esc, hkeep]; rfl

namespace Tree.PairAdded

variable {t u : Tree} {v : Byte} {i : Nat} (hu : t.PairAdded u v i) (h : t.Filled)
include hu h

theorem add_two_lt : i + 2 < hufRoot := by
  have := hu.tp
  have := h.linked.tp_lt
  omega

omit h in
theorem c_rest {k : Nat} (hk : i + 3 ≤ k) : u.c.get k = t.c.get k := congrArg Prod.fst (hu.rest k hk)

/-- The two lowest nodes are leaves, the third is internal. -/
theorem low_codes : (u.c.get i).msb = true ∧ (t.c.get (i + 2)).msb = true ∧ (u.c.get (i + 1)).msb = true
    ∧ (u.c.get (i + 2)).msb = false ∧ u.child (i + 2) = i := by
  have hlt := hu.add_two_lt h
  have hleaf := h.linked.low_leaf hu.tp.1.le (by have := hu.tp.1; omega)
  obtain ⟨hpar, hparm⟩ := Joined.parentCode_toNat (show i ≤ hufRoot by omega)
  have hci2 : u.c.get (i + 2) = BitVec.ofNat 32 i := congrArg Prod.fst hu.parent
  refine ⟨?_, hleaf, ?_, hci2 ▸ hparm, by rw [child, hci2, hpar]⟩
  · rw [show u.c.get i = leafCode v from congrArg Prod.fst hu.new]
    exact (leafCode_spec v).1
  · rwa [show u.c.get (i + 1) = t.c.get (i + 2) from congrArg Prod.fst hu.moved]

/-- An internal node is the new one, or it was one before. -/
theorem inner_cases {q : Nat} (hq : i ≤ q) (hm : (u.c.get q).msb = false) :
    q = i + 2 ∨ (i + 3 ≤ q ∧ (t.c.get q).msb = false ∧ u.child q = t.child q) := by
  obtain ⟨h0, -, h1, -⟩ := hu.low_codes h
  rcases Nat.lt_or_ge q (i + 3) with hlt | hge
  · obtain rfl | rfl | rfl : q = i ∨ q = i + 1 ∨ q = i + 2 := by omega
    · rw [h0] at hm; cases hm
    · rw [h1] at hm; cases hm
    · exact .inl rfl
  · have hc := hu.c_rest hge
    exact .inr ⟨hge, hc ▸ hm, congrArg BitVec.toNat hc⟩

/-- The new pair is linked into the tree. -/
theorem linked : u.Linked := by
  have hroot := hufRoot_eq
  have hlt := hu.add_two_lt h
  obtain ⟨hi, htp⟩ := hu.tp
  obtain ⟨hlow, heven⟩ := h.low
  obtain ⟨hm0, hleaf, hm1, hm2, hchild⟩ := hu.low_codes h
  have hci : u.c.get i = leafCode v := congrArg Prod.fst hu.new
  have hci1 : u.c.get (i + 1) = t.c.get (i + 2) := congrArg Prod.fst hu.moved
  have hc := fun k hk => hu.c_rest (k := k) hk
  refine ⟨?low, ?root, fun q h1 h2 h3 => ?leaf, fun q h1 h2 h3 => ?child, fun q h1 h2 h3 => ?ofChild, fun k h1 h2 => ?parent,
    ?escape, fun k h1 h2 h3 => ?oneEscape⟩
  all_goals rw [htp] at *
  case low => omega
  case root => rw [hc _ (by omega)]; exact h.root
  case leaf =>
    rcases Nat.lt_or_ge q (i + 3) with hq | hq
    · obtain rfl | rfl | rfl : q = i ∨ q = i + 1 ∨ q = i + 2 := by omega
      · rw [hci]; exact .inr ⟨v, rfl⟩
      · rw [hci1]; exact h.leaf _ hi.le (by omega) hleaf
      · rw [hm2] at h3; cases h3
    · rw [hc q hq] at h3 ⊢
      exact h.leaf q (by omega) h2 h3
  case child =>
    rcases hu.inner_cases h h1 h3 with rfl | ⟨hq, hm, hcq⟩
    · omega
    · obtain ⟨ha, hb, hd, -⟩ := h.inner q (by omega) h2 hm
      rw [hcq]
      exact ⟨by omega, hb, hd⟩
  case ofChild =>
    rw [hu.p, hu.p]
    rcases hu.inner_cases h h1 h3 with rfl | ⟨hq, hm, hcq⟩
    · rw [hchild, if_pos (.inl rfl), if_pos (.inr rfl), nodeRef_toNat hlt.le]
      exact ⟨rfl, rfl⟩
    · obtain ⟨ha, -, -, -, hpa, hpb⟩ := h.inner q (by omega) h2 hm
      rw [hcq, if_neg (by omega), if_neg (by omega)]
      exact ⟨hpa, hpb⟩
  case parent =>
    rw [hu.p]
    split_ifs with hk
    · rw [nodeRef_toNat hlt.le, hchild]
      exact ⟨by omega, hlt.le, hm2, by omega⟩
    · obtain ⟨ha, hb, hm, hd⟩ := h.parent k (by omega) h2
      rw [child, hc _ (by omega)]
      exact ⟨ha, hb, hm, hd⟩
  case escape =>
    obtain ⟨ha, hb, he⟩ := h.escape
    rw [hu.esc]
    split_ifs with h2
    · rw [nodeRef_toNat (by omega), hci1]
      exact ⟨by omega, by omega, h2⟩
    · have hne : t.esc.toNat ≠ i + 2 := fun hh => h2 (hh ▸ he)
      rw [hc _ (by omega)]
      exact ⟨by omega, hb, he⟩
  case oneEscape =>
    rw [hu.esc]
    rcases Nat.lt_or_ge k (i + 3) with hk | hk
    · obtain rfl | rfl | rfl : k = i ∨ k = i + 1 ∨ k = i + 2 := by omega
      · exact absurd (hci ▸ h3) (leafCode_spec v).2
      · rw [hci1] at h3
        rw [if_pos h3, nodeRef_toNat (by omega)]
      · rw [h3] at hm2
        exact absurd hm2 (by decide)
    · rw [hc k hk] at h3
      have hesc := h.oneEscape k (by omega) h2 h3
      rw [if_neg fun he => by have := h.oneEscape (i + 2) hi.le (by omega) he; omega]
      exact hesc

omit h in
/-- What the parents count: the pair's parent counts for the lightest node, as its place did before. -/
theorem counts {k : Nat} (hk : i ≤ k) :
    u.counts (i + 2) k = if k = i then 1 else if k = i + 1 then t.weight (i + 2) else t.weight k := by
  unfold Tree.counts
  rcases Nat.lt_or_ge k (i + 3) with hlt | hge
  · obtain rfl | rfl | rfl : k = i ∨ k = i + 1 ∨ k = i + 2 := by omega
    · rw [if_neg (by omega), if_pos rfl]; exact congrArg Prod.snd hu.new
    · rw [if_neg (by omega), if_neg (by omega), if_pos rfl]; exact congrArg Prod.snd hu.moved
    · rw [if_pos rfl, if_neg (by omega), if_neg (by omega),
        show u.weight (i + 2) = t.weight (i + 2) + 1 from congrArg Prod.snd hu.parent]
      rfl
  · rw [if_neg (by omega), if_neg (by omega), if_neg (by omega)]
    exact congrArg Prod.snd (hu.rest k hge)

/-- The pair's parent has grown by one. -/
theorem weighed : u.Weighed (i + 2) := by
  have hlt := hu.add_two_lt h
  obtain ⟨hi, htp⟩ := hu.tp
  have hcounts := fun k hk => hu.counts (k := k) hk
  refine ⟨?counted, fun k h1 h2 => ?rises, ?ceiling, fun q h1 h2 h3 => ?sum⟩
  all_goals rw [htp] at *
  case counted => rw [hcounts i le_rfl, if_pos rfl]
  case rises =>
    rw [hcounts k h1, hcounts (k + 1) (by omega), if_neg (show k + 1 ≠ i by omega)]
    rcases Nat.lt_or_ge k (i + 2) with hk | hk
    · obtain rfl | rfl : k = i ∨ k = i + 1 := by omega
      · rw [if_pos rfl, if_pos rfl, ← hi]; exact h.counted
      · rw [if_neg (by omega), if_pos rfl, if_neg (by omega)]
    · rw [if_neg (by omega), if_neg (by omega), if_neg (by omega)]
      exact h.rises k (by omega) h2
  case ceiling =>
    rw [hcounts _ (by omega), if_neg (by omega), if_neg (by omega)]
    exact h.ceiling
  case sum =>
    rcases hu.inner_cases h h1 h3 with rfl | ⟨hq, hm, hcq⟩
    · rw [(hu.low_codes h).2.2.2.2, hcounts i le_rfl, hcounts (i + 1) (by omega), if_pos rfl, if_neg (by omega), if_pos rfl,
        Nat.add_comm 1]
      exact congrArg Prod.snd hu.parent
    · obtain ⟨ha, -, -, hw, -⟩ := h.inner q (by omega) h2 hm
      rw [hcq, hcounts _ (by omega), hcounts _ (by omega), if_neg (by omega), if_neg (by omega), if_neg (by omega),
        if_neg (by omega), ← hw]
      exact congrArg Prod.snd (hu.rest q hq)

theorem growing : u.Growing (i + 2) := ⟨hu.linked h, hu.weighed h, by rw [hu.tp.2]; omega, (hu.add_two_lt h).le⟩

/-- The leaves with the new one. -/
theorem leaves : u.leaves = (leafCode v, 1) :: t.leaves := by
  have hlt := hu.add_two_lt h
  obtain ⟨hi, htp⟩ := hu.tp
  obtain ⟨hm0, hleaf, -, hm2, -⟩ := hu.low_codes h
  have hnodes : u.nodes i (hufRoot - i) = (leafCode v, 1) :: t.node (i + 2) :: u.node (i + 2) :: t.nodes (i + 3) (hufRoot - (i + 3)) := by
    rw [show hufRoot - i = hufRoot - (i + 3) + 3 by omega, nodes_succ, nodes_succ, nodes_succ, hu.new, hu.moved,
      nodes_congr fun k hk _ => hu.rest k hk]
  have hold : t.nodes (i + 2) (hufRoot - (i + 2)) = t.node (i + 2) :: t.nodes (i + 3) (hufRoot - (i + 3)) := by
    rw [show hufRoot - (i + 2) = hufRoot - (i + 3) + 1 by omega, nodes_succ]
  rw [leaves_eq, leaves_eq, htp, hi, hnodes, hold]
  simp [leafNodes, node, (leafCode_spec v).1, hleaf, hm2]

end Tree.PairAdded

section

variable {t : Tree} (h : t.Filled) (v : Byte)
include h

/-- `AddNewEntry` (R266) in a tree that is not full. -/
theorem Tree.Filled.addNewEntry_more (h0 : 0 < t.tp.toNat) : (t.addNewEntry v).Growing hufRoot
    ∧ (t.addNewEntry v).leaves.Perm ((leafCode v, 1) :: t.leaves) ∧ (t.addNewEntry v).tp = nodeRef (t.tp.toNat - 2)
    ∧ (t.addNewEntry v).weight hufRoot = t.weight hufRoot + 1 := by
  have hpair := h.split_pairAdded v (i := t.tp.toNat - 2) (by have := h.low; omega)
  rw [Tree.addNewEntry_more h0 h.root_ne_null]
  obtain ⟨hg, hperm, htp⟩ := (hpair.growing h).normalize
  rw [hpair.leaves h] at hperm
  refine ⟨hg, hperm, htp.trans (split_tp ..), ?_⟩
  rw [hg.root_weight, (hperm.map Prod.snd).sum_eq, h.growing.root_weight]
  exact Nat.add_comm ..

/-- `AddNewEntry` (R266) below the ceiling keeps the invariants. -/
theorem Tree.Filled.addNewEntry (hmax : t.weight hufRoot < hufMax) : (t.addNewEntry v).Filled := by
  rcases Nat.eq_zero_or_pos t.tp.toNat with h0 | h0
  · rw [addNewEntry_full h0]
    exact h.reuse v h0
  · obtain ⟨hg, -, -, hw⟩ := h.addNewEntry_more v h0
    exact hg.filled (by omega)

end

/-! ## The first symbol -/

theorem Tree.Empty.addNewEntry_eq {t : Tree} (h : t.Empty) (v : Byte) :
    t.addNewEntry v = (t.enter v 0x1FE).addFirst 0x1FE := by
  have htp := h.tp
  have hroot := hufRoot_eq
  rw [addNewEntry_first (by omega) h.root, show t.tp.toNat - 2 = 0x1FE by omega]

/-- The tree of one symbol (R266), node by node. -/
theorem Tree.addFirst_get (t : Tree) (v : Byte) : let u := (t.enter v 0x1FE).addFirst 0x1FE
    u.tp = 0x1FE ∧ u.esc = 0x1FF ∧ u.node 0x1FE = (leafCode v, 1) ∧ u.node 0x1FF = (hufEscape, 1)
    ∧ u.node 0x200 = (0x1FE, 2) ∧ u.p.get 0x1FE = 0x200 ∧ u.p.get 0x1FF = 0x200 := by
  refine ⟨rfl, rfl, ?_, ?_, ?_, ?_, ?_⟩ <;>
    simp [enter, addFirst, node, weight, Store.get_set, hufRoot, nodeRef]

/-- The first symbol of an empty tree makes a tree of the invariants. -/
theorem Tree.Empty.addNewEntry {t : Tree} (h : t.Empty) (v : Byte) : (t.addNewEntry v).Filled := by
  rw [h.addNewEntry_eq]
  obtain ⟨htp, hesc, h0, h1, h2, hp0, hp1⟩ := t.addFirst_get v
  generalize (t.enter v 0x1FE).addFirst 0x1FE = u at *
  obtain ⟨hc0, hw0⟩ := Prod.ext_iff.mp h0
  obtain ⟨hc1, hw1⟩ := Prod.ext_iff.mp h1
  obtain ⟨hc2, hw2⟩ := Prod.ext_iff.mp h2
  dsimp only [node] at hc0 hc1 hc2 hw0 hw1 hw2
  obtain ⟨hcode, hcodee⟩ := leafCode_spec v
  have hchild : u.child 0x200 = 0x1FE := by rw [child, hc2]; rfl
  have hq : ∀ q, u.tp.toNat ≤ q → q < hufRoot → q = 0x1FE ∨ q = 0x1FF := fun q h1 h2 => by
    rw [htp] at h1
    change 0x1FE ≤ q at h1
    change q < 0x200 at h2
    omega
  refine ⟨by rw [htp]; decide, by rw [show u.c.get hufRoot = 0x1FE from hc2]; decide, fun q h1 h2 _ => ?leaf,
    fun q h1 h2 h3 => ?inner, fun q h1 h2 => ?parent, ?counted, fun q h1 h2 => ?rises, ?ceiling, ?escape, fun q h1 h2 h3 => ?oneEscape⟩
  case leaf =>
    obtain rfl | rfl := hq q h1 h2
    · rw [hc0]; exact .inr ⟨v, rfl⟩
    · rw [hc1]; exact .inl rfl
  case inner =>
    rcases Nat.eq_or_lt_of_le h2 with rfl | h2
    · change u.tp.toNat ≤ u.child 0x200 ∧ u.child 0x200 % 2 = 0 ∧ u.child 0x200 + 1 < 0x200
        ∧ u.weight 0x200 = u.weight (u.child 0x200) + u.weight (u.child 0x200 + 1)
        ∧ (u.p.get (u.child 0x200)).toNat = 0x200 ∧ (u.p.get (u.child 0x200 + 1)).toNat = 0x200
      rw [hchild, htp, hw0, hw1, hw2, hp0, hp1]
      decide
    · obtain rfl | rfl := hq q h1 h2
      · rw [hc0, hcode] at h3; cases h3
      · rw [hc1] at h3; exact absurd h3 (by decide)
  case parent =>
    obtain rfl | rfl := hq q h1 h2
    · rw [hp0]
      change 0x1FE < 0x200 ∧ 0x200 ≤ 0x200 ∧ (u.c.get 0x200).msb = false ∧ u.child 0x200 = 0x1FE
      rw [hc2, hchild]
      decide
    · rw [hp1]
      change 0x1FF < 0x200 ∧ 0x200 ≤ 0x200 ∧ (u.c.get 0x200).msb = false ∧ u.child 0x200 = 0x1FE
      rw [hc2, hchild]
      decide
  case counted => rw [htp]; exact hw0.ge
  case rises =>
    obtain rfl | rfl := hq q h1 h2
    · rw [hw0, hw1]
    · rw [hw1, hw2]; decide
  case ceiling =>
    change u.weight 0x200 ≤ 0x4000
    rw [hw2]; decide
  case escape =>
    rw [htp, hesc]
    exact ⟨by decide, by decide, hc1⟩
  case oneEscape =>
    rw [hesc]
    obtain rfl | rfl := hq q h1 h2
    · rw [hc0] at h3; exact absurd h3 hcodee
    · rfl

end Sys2Proof.Machine
end

section
/-! PROOFS. The commands of unit HUF (42_huffman.md R268 to R281) and the invariants of R285 through every step. -/

namespace Sys2Proof.Machine

/-! ## The decoding of a code (R268) -/

/-- A walk from an internal node ends at a leaf of the tree. -/
theorem Tree.Linked.hufWalk_leaf {t : Tree} (h : t.Linked) {e : Env} {fuel q node : Nat} {io io' : Io}
    (hq : t.tp.toNat ≤ q ∧ q ≤ hufRoot) (hm : (t.c.get q).msb = false)
    (hw : hufWalk e t.c fuel (t.c.get q) io = .ok (node, io')) :
    (t.tp.toNat ≤ node ∧ node < hufRoot) ∧ (t.c.get node).msb = true := by
  induction fuel generalizing q io with
  | zero => cases hw
  | succ fuel ih =>
    rw [hufWalk] at hw
    split at hw
    · cases hw
    · next b io1 hb =>
      obtain ⟨-, rfl, -⟩ := srcBit_ok.mp hb
      have hbit := bitNat_lt (bitAt e io.buf io.pos)
      obtain ⟨ha, -, hlt⟩ := h.child q hq.1 hq.2 hm
      have hnode : t.tp.toNat ≤ (t.c.get q).toNat + bitNat (bitAt e io.buf io.pos)
          ∧ (t.c.get q).toNat + bitNat (bitAt e io.buf io.pos) < hufRoot := by
        change t.tp.toNat ≤ t.child q + _ ∧ t.child q + _ < _
        omega
      dsimp only at hw
      split at hw
      · next hleaf =>
        cases hw
        exact ⟨hnode, hleaf⟩
      · next hleaf => exact ih ⟨hnode.1, hnode.2.le⟩ (by simpa [isLeafCode] using hleaf) hw

/-- A literal in a tree with room below the ceiling. -/
theorem hufLiteral_tree {e : Env} {t : Tree} {io io' : Io} {c : HufCode} (h : hufLiteral e t io = .ok (c, io')) :
    c.tree = t.addNewEntry c.sym := by
  obtain ⟨⟨v, io1⟩, -, h⟩ := Run.bind_ok.mp h
  cases h
  rfl

/-- The tree of a decoded code meets the invariants of R285 when the tree before does or is empty. -/
theorem hufDecodeTree_filled {e : Env} {t : Tree} {io io' : Io} {c : HufCode} (ht : t.Empty ∨ t.Filled)
    (h : hufDecodeTree e t io = .ok (c, io')) : c.tree.Filled := by
  rw [hufDecodeTree] at h
  split at h
  · next hnull =>
    rw [hufLiteral_tree h]
    rcases ht with ht | ht
    · exact ht.addNewEntry _
    · have := ht.escape.2.1
      rw [hnull] at this
      exact absurd this (by decide)
  · next hnull =>
    have hf : t.Filled := ht.resolve_left fun he => hnull he.esc
    obtain ⟨⟨node, io1⟩, hwalk, h⟩ := Run.bind_ok.mp h
    obtain ⟨hnode, hleaf⟩ := hf.linked.hufWalk_leaf ⟨hf.linked.tp_lt.le, le_rfl⟩ hf.root hwalk
    obtain ⟨hinc, hmax, -⟩ := hf.increase hnode hleaf
    dsimp only at h
    split at h
    · rw [hufLiteral_tree h]
      exact hinc.addNewEntry _ hmax
    · cases h
      exact hinc

/-! ## Every step keeps the trees -/

/-- What a command leaves of HUF. -/
theorem huf_of_runCommand {s t after : State} {id : CmdId} {checks : Run Unit} {body : Run State}
    (h : runCommand s id checks body after = .next t) :
    t.huf = s.huf ∨ (∃ u, checks = .ok () ∧ body = .ok u ∧ t.huf = u.huf) ∨ t.huf = after.huf := by
  rcases runCommand_cases h with ⟨r, -, rfl⟩ | ⟨u, hc, hb, rfl⟩ | ⟨r, -, -, rfl⟩
  · exact .inl rfl
  · exact .inr (.inl ⟨u, hc, hb, rfl⟩)
  · exact .inr (.inr rfl)

theorem State.TreeInv.of_huf_eq {s t : State} (hs : s.TreeInv) (h : t.huf = s.huf) : t.TreeInv := by
  unfold State.TreeInv
  rw [h]
  exact hs

theorem State.TreeInv.of_invalid {t : State} (h : t.huf.valid = false) : t.TreeInv := fun hv => by
  rw [h] at hv
  cases hv

theorem emptyTree_empty : emptyTree.Empty := ⟨rfl, rfl, rfl⟩

section

variable {s t : State} (hs : s.TreeInv)
include hs

theorem hufInit_treeInv {o : BitVec 1} (h : exec (.hufInit o) s = .next t) : t.TreeInv := by
  rcases huf_of_runCommand (show execHufInit o s = .next t from h) with he | ⟨u, -, hb, he⟩ | he
  · exact hs.of_huf_eq he
  · cases hb
    intro _ k
    rw [he]
    refine .inl ?_
    change (Vector.replicate 256 emptyTree)[k].Empty
    rw [show (Vector.replicate 256 emptyTree)[k] = emptyTree from Vector.getElem_replicate _]
    exact emptyTree_empty
  · exact hs.of_huf_eq he

theorem hufGetcode_treeInv (h : exec .hufGetcode s = .next t) : t.TreeInv := by
  rcases huf_of_runCommand h with he | ⟨u, hc, hb, he⟩ | he
  · exact hs.of_huf_eq he
  · obtain ⟨_, hv, -⟩ := Run.bind_ok.mp hc
    have hold := hs (require_ok.mp hv)
    obtain ⟨⟨c, io⟩, hdec, hb⟩ := Run.bind_ok.mp hb
    cases hb
    intro _ k
    rw [he]
    change (s.huf.trees.set s.huf.treeIndex.val c.tree s.huf.treeIndex.isLt)[k.val].Empty
      ∨ (s.huf.trees.set s.huf.treeIndex.val c.tree s.huf.treeIndex.isLt)[k.val].Filled
    rw [Vector.getElem_set]
    split
    · exact .inr (hufDecodeTree_filled (hold _) hdec)
    · exact hold k
  · exact .of_invalid (congrArg Huf.valid he)

theorem hufSetctx_treeInv (h : exec .hufSetctx s = .next t) : t.TreeInv := by
  rcases huf_of_runCommand (show execHufSetctx s = .next t from h) with he | ⟨u, -, hb, he⟩ | he
  · exact hs.of_huf_eq he
  · cases hb
    unfold State.TreeInv
    rw [he]
    exact hs
  · exact hs.of_huf_eq he

theorem srstUnit_treeInv {u : BitVec 4} (h : exec (.srstUnit u) s = .next t) : t.TreeInv := by
  rcases huf_of_runCommand (show execSrstUnit u s = .next t from h) with he | ⟨u', -, hb, he⟩ | he
  · exact hs.of_huf_eq he
  · cases hb
    rw [srstBody_eq_withReset] at he
    change t.huf = if u.toNat = 4 ∨ u.toNat = 15 then Huf.atReset s.draws else s.huf at he
    split at he
    · exact .of_invalid (congrArg Huf.valid he)
    · exact hs.of_huf_eq he
  · exact hs.of_huf_eq he

/-- A command that does not drive unit HUF leaves its trees. -/
theorem undriven_treeInv {i : Instr} (hi : i.drives 4 = false) (h : exec i s = .next t) : t.TreeInv := by
  obtain ⟨u, hu, rfl | ⟨r, -, rfl⟩⟩ := exec_cases h
  · exact hs.of_huf_eq (hu.huf hi)
  · exact hs.of_huf_eq (hu.huf hi)

/-- Every command keeps the trees of an initialised decoder. -/
theorem exec_treeInv {i : Instr} (h : exec i s = .next t) : t.TreeInv := by
  cases i with
  | srstUnit u => exact srstUnit_treeInv hs h
  | hufInit o => exact hufInit_treeInv hs h
  | hufGetcode => exact hufGetcode_treeInv hs h
  | hufSetctx => exact hufSetctx_treeInv hs h
  | _ => exact undriven_treeInv hs rfl h

end

/-- Settles O59: a command keeps the trees (`exec_treeInv`, where `hufDecodeTree_filled` is HUF_GETCODE); a host step leaves them or
resets the unit. -/
theorem stepKeepsTrees : Obligations.StepKeepsTrees := by
  intro s t hs h
  rcases step_units h with ⟨i, turns, he⟩ | hkept | hreset
  · exact exec_treeInv (s := { s with turns := turns }) hs he
  · exact hs.of_huf_eq (congrArg Units.huf hkept)
  · exact .of_invalid (congrArg (fun u => u.huf.valid) hreset)

/-! ## HUF_INIT and HUF_SETCTX (R270, R281) -/

/-- Every entry of the empty tree (R262). -/
theorem emptyTree_get : emptyTree.p.get 0x200 = 0x8000 ∧ emptyTree.c.get 0x200 = 0x8000 ∧ (∀ i, emptyTree.w.get i = 0)
    ∧ (∀ i < 0x200, emptyTree.c.get i = 0 ∧ emptyTree.p.get i = 0) ∧ ∀ i, emptyTree.sym.get i = 0x8000 := by
  refine ⟨rfl, rfl, fun i => rfl, fun i hi => ?_, fun i => rfl⟩
  have hne : i ≠ hufRoot := Nat.ne_of_lt hi
  exact ⟨Store.get_set_other _ _ hne, Store.get_set_other _ _ hne⟩

/-- HUF_INIT checks nothing and empties every tree. -/
theorem exec_hufInit (o : BitVec 1) (s : State) : exec (.hufInit o) s =
    .next { s with huf := ⟨true, o == 1, 0, Vector.replicate 256 emptyTree⟩ }.finished := rfl

/-- Settles O31: HUF_INIT answers at once; the checks of HUF_SETCTX in their order. -/
theorem hufInitAndSetctx : Obligations.HufInitAndSetctx := by
  intro s
  refine ⟨fun o => ⟨_, exec_hufInit o s, rfl, rfl, rfl, rfl, fun k => ?init⟩, fun hv ha => ?set,
    fun hv ha => refused_of_check ⟨.badOperand, s.arg 0⟩ (show execHufSetctx s = _ from rfl) ?context,
    fun hv => refused_of_check ⟨.sequenceError, s.unitstat⟩ (show execHufSetctx s = _ from rfl) ?ready⟩
  case init =>
    obtain ⟨hp, hc, hw, hlow, hsym⟩ := emptyTree_get
    have hk : (Vector.replicate 256 emptyTree)[k] = emptyTree := Vector.getElem_replicate _
    change (Vector.replicate 256 emptyTree)[k].esc = _ ∧ (Vector.replicate 256 emptyTree)[k].tp = _
      ∧ (Vector.replicate 256 emptyTree)[k].c.get _ = _ ∧ (Vector.replicate 256 emptyTree)[k].p.get _ = _
      ∧ (∀ i, (Vector.replicate 256 emptyTree)[k].w.get i = _)
      ∧ (∀ i < _, (Vector.replicate 256 emptyTree)[k].c.get i = _ ∧ (Vector.replicate 256 emptyTree)[k].p.get i = _)
      ∧ ∀ i < _, (Vector.replicate 256 emptyTree)[k].sym.get i = _
    rw [hk]
    exact ⟨rfl, rfl, hc, hp, hw, hlow, fun i _ => hsym i⟩
  case set =>
    refine runCommand_complete (after := s) ?_ rfl
    rw [requireReady_ok hv, decide_eq_true ha]
    rfl
  case context =>
    rw [requireReady_ok hv, decide_eq_false (Nat.not_le.mpr ha)]
    rfl
  case ready =>
    rw [hv]
    rfl

/-! ## HUF_GETCODE (R280) -/

section

variable {s : State} {k : Fin 256}

theorem treeIndex_eq (hk : k.val = if s.huf.order1 then s.huf.last.toNat else 0) : s.huf.treeIndex = k := by
  refine Fin.ext (Eq.trans ?_ hk.symm)
  unfold Huf.treeIndex
  split
  · rfl
  · rfl

variable (hv : s.huf.valid = true) (hs : s.srcInBounds = true) (hk : k.val = if s.huf.order1 then s.huf.last.toNat else 0)
include hv hs hk

/-- HUF_GETCODE where the tree in use answers a code. -/
theorem exec_hufGetcode_ok {c : HufCode} {io : Io} (h : hufDecodeTree s.env s.huf.trees[k] s.io = .ok (c, io)) :
    exec .hufGetcode s = .next ((({ s with huf := { s.huf with last := c.sym, trees := s.huf.trees.set k c.tree } }.atBit
      io.pos).setResult (c.sym.setWidth 32)).setResult1 (wordOf (bitNat c.lit))).finished := by
  obtain rfl := treeIndex_eq hk
  refine runCommand_complete (after := s.loseSrcPos.loseHuf.endDraws) ?_ ?_
  · rw [State.checkHufGetcode, requireReady_ok hv, checkSrc_ok hs]
    rfl
  · rw [h]
    rfl

end

theorem srcField_eq (s : State) (p n : Nat) :
    s.srcField p n = fieldValue s.env.lsb n (fun j => bitNat (bitAt s.env s.buf (p + j))) := by
  simp only [bitNat_bitAt]
  rfl

/-- The 8-bit literal at the cursor. -/
theorem hufLiteral_field {e : Env} {io : Io} {v : Byte} (t : Tree) (hp : io.pos + 8 ≤ 8 * e.srcLen)
    (hf : fieldValue e.lsb 8 (fun j => bitNat (bitAt e io.buf (io.pos + j))) = v.toNat) :
    hufLiteral e t io = .ok (⟨v, true, t.addNewEntry v⟩, { io with pos := io.pos + 8 }) := by
  rw [hufLiteral, srcBits_field hp, hf]
  simp only [Run.ok_bind, BitVec.ofNat_toNat, BitVec.setWidth_eq]
  rfl

theorem leafCode_eq_add (v : Byte) : leafCode v = 0x80000000 + v.setWidth 32 := by revert v; decide

/-- Settles O32: the literal (`hufLiteral_field`) and the tree of one symbol (`Tree.addFirst_get`). -/
theorem hufFirstCodeIsLiteral : Obligations.HufFirstCodeIsLiteral := by
  intro s k v hv hs hk ht hlen hf
  have hdec : hufDecodeTree s.env s.huf.trees[k] s.io =
      .ok (⟨v, true, emptyTree.addNewEntry v⟩, { s.io with pos := s.src.pos.toNat + 8 }) := by
    rw [ht]
    exact hufLiteral_field (e := s.env) (io := s.io) emptyTree hlen ((srcField_eq s _ _).symm.trans hf)
  refine ⟨_, exec_hufGetcode_ok hv hs hk hdec, rfl, fun j hj => ?other, ?tree⟩
  case other => exact Vector.getElem_set_ne k.isLt j.isLt fun h => hj (Fin.ext h.symm)
  case tree =>
    have hset : (s.huf.trees.set k (emptyTree.addNewEntry v))[k] = emptyTree.addNewEntry v := Vector.getElem_set_self _
    obtain ⟨htp, hesc, h0, h1, h2, hp0, hp1⟩ := emptyTree.addFirst_get v
    rw [← emptyTree_empty.addNewEntry_eq, ← hset] at htp hesc h0 h1 h2 hp0 hp1
    obtain ⟨hc0, hw0⟩ := Prod.ext_iff.mp h0
    obtain ⟨hc1, hw1⟩ := Prod.ext_iff.mp h1
    obtain ⟨hc2, hw2⟩ := Prod.ext_iff.mp h2
    exact ⟨htp, hesc, hc0.trans (leafCode_eq_add v), hc1, hc2, BitVec.eq_of_toNat_eq hw0, BitVec.eq_of_toNat_eq hw1,
      BitVec.eq_of_toNat_eq hw2, hp0, hp1⟩

/-- The walk of `HufDecodeTree` along bits that lead to a leaf. -/
theorem hufWalk_path {e : Env} {c : Store 32} {node fuel : Nat} {bits : List Nat} {ch : BitVec 32} {io : Io}
    (hpath : hufPath c ch bits node) (hbits : Feeds e io.buf io.pos bits) (hfuel : bits.length ≤ fuel) :
    hufWalk e c fuel ch io = .ok (node, { io with pos := io.pos + bits.length }) := by
  induction bits generalizing ch fuel io with
  | nil => exact hpath.elim
  | cons b rest ih =>
    rw [List.length_cons] at hfuel
    obtain ⟨fuel, rfl⟩ : ∃ n, fuel = n + 1 := ⟨fuel - 1, by omega⟩
    rw [hufWalk, srcBit_feeds hbits]
    dsimp only
    rw [hufPath] at hpath
    split at hpath
    · next hrest =>
      obtain ⟨rfl, hm⟩ := hpath
      rw [if_pos (show isLeafCode _ = true from hm), hrest]
      rfl
    · obtain ⟨hm, hpath⟩ := hpath
      rw [if_neg (by simp [isLeafCode, hm])]
      refine (ih (io := { io with pos := io.pos + 1 }) hpath hbits.tail (by omega)).trans ?_
      simp [Nat.add_assoc, Nat.add_comm 1]

/-- `HufDecodeTree` where the next bits lead to a leaf. -/
theorem hufDecodeTree_path {e : Env} {t : Tree} {node : Nat} {bits : List Nat} {io : Io} (hesc : t.esc ≠ hufNull)
    (hpath : hufPath t.c (t.c.get hufRoot) bits node) (hbits : Feeds e io.buf io.pos bits) : hufDecodeTree e t io =
      if t.c.get node = hufEscape then hufLiteral e (t.increase node) { io with pos := io.pos + bits.length }
      else .ok (⟨(t.c.get node).setWidth 8, false, t.increase node⟩, { io with pos := io.pos + bits.length }) := by
  rw [hufDecodeTree, if_neg hesc, hufWalk_path hpath hbits (by have := hbits.1; omega)]
  simp only [Run.ok_bind, BitVec.ofNat_toNat]
  rfl

/-- Settles O33: the walk (`hufDecodeTree_path`), then the leaf's symbol or the literal behind the escape. -/
theorem hufCodeFollowsPath : Obligations.HufCodeFollowsPath := by
  intro s k bits node hv hs hk hesc hpath hbits
  have hdec := hufDecodeTree_path (e := s.env) (io := s.io) hesc hpath (feeds_of_holdsBits hbits)
  refine ⟨fun hne => ?symbol, fun v he hlen hf => ?escape⟩
  case symbol =>
    have hrun := exec_hufGetcode_ok hv hs hk (hdec.trans (if_neg hne))
    exact hrun
  case escape =>
    have hlit := hufLiteral_field (e := s.env) (io := { s.io with pos := s.src.pos.toNat + bits.length })
      (s.huf.trees[k].increase node) hlen ((srcField_eq s _ _).symm.trans hf)
    have hrun := exec_hufGetcode_ok hv hs hk ((hdec.trans (if_pos he)).trans hlit)
    exact hrun

/-! ## The operations on the leaves (R264 to R267) -/

theorem nodeRef_sub_two {tp : BitVec 16} (h : 2 ≤ tp.toNat) : nodeRef (tp.toNat - 2) = tp - 2 := by
  refine BitVec.eq_of_toNat_eq ?_
  rw [BitVec.toNat_sub_of_le (by simpa [BitVec.le_def] using h), nodeRef, BitVec.toNat_ofNat]
  have := tp.isLt
  simp
  omega

/-- Settles O34: `Increase` below and at the ceiling, `HalfAndRebuild`, `AddNewEntry` with room and in a full tree. -/
theorem treeOperationsKeepLeaves : Obligations.TreeOperationsKeepLeaves := by
  intro t h
  obtain ⟨-, hleaves, htp, -⟩ := h.growing.halfAndRebuild
  refine ⟨fun e h1 h2 hm => ?increase, hleaves, htp, fun v => ⟨fun h0 => ?more, fun h0 i hi => ?full⟩⟩
  case increase =>
    obtain ⟨hg, hperm, -, hw⟩ := h.normalize_bump ⟨h1, h2⟩ hm
    obtain ⟨-, hlt, htp⟩ := h.increase ⟨h1, h2⟩ hm
    refine ⟨fun hmax => ?_, fun hmax => ⟨?_, hlt⟩, htp⟩
    · rw [h.increase_below ⟨h1, h2⟩ hm hmax]
      exact ⟨hperm, hw⟩
    · rw [h.increase_at ⟨h1, h2⟩ hm hmax, hg.halfAndRebuild.2.1]
      exact hperm.map halveLeaf
  case more =>
    have hpos : 0 < t.tp.toNat := Nat.pos_of_ne_zero fun hz => h0 (BitVec.eq_of_toNat_eq hz)
    obtain ⟨-, hperm, htp, hw⟩ := h.addNewEntry_more v hpos
    have := h.low.2
    exact ⟨hperm, htp.trans (nodeRef_sub_two (by omega)), hw⟩
  case full =>
    rw [Tree.addNewEntry_full (by rw [h0]; rfl)]
    obtain rfl : i = if t.c.get 0 = hufEscape then 1 else 0 := hi
    exact ⟨Store.get_set_same .., fun j hj => Store.get_set_other _ _ hj, fun j => ⟨rfl, rfl⟩⟩

end Sys2Proof.Machine
end

section
/-! PROOFS. GOL_GAMMA and GOL_RUNLEN (43_golomb_gamma.md R300, R301, R305, R306): the ERI gamma code is read pair by pair. -/

namespace Sys2Proof.Machine

/-! ## The pairs of an ERI gamma code (R300) -/

/-- The pairs of the ERI gamma code for the low `n` bits of `v`: each bit, and whether another pair follows. -/
def eriTail (n v : Nat) : List Nat :=
  (List.range n).flatMap (fun j => [v / 2 ^ (n - 1 - j) % 2, if j + 1 = n then 0 else 1])

theorem eriCode_eq_tail {v : Nat} (h : v ≠ 1) : eriCode v = 1 :: eriTail v.log2 v := if_neg h

theorem eriTail_succ (n v : Nat) :
    eriTail (n + 1) v = v / 2 ^ n % 2 :: (if n = 0 then 0 else 1) :: eriTail n v := by
  rw [eriTail, List.range_succ_eq_map, List.flatMap_cons, List.flatMap_map]
  simp [eriTail, Nat.sub_sub, Nat.add_comm 1, eq_comm]

/-! ## The loop of `EriGamma()` (R300) -/

section

variable {e : Env} {left code base pairs d : Nat} {io io1 io2 : Io} (hd : srcBit e io = .ok (d, io1))
include hd

/-- The pair without a continue bit ends the code. -/
theorem eriPairs_last (hc : srcBit e io1 = .ok (0, io2)) :
    eriPairs e left code base pairs io = .ok (2 * code + d + base, 1 + 2 * (pairs + 1), io2) := by
  unfold eriPairs
  rw [hd]
  simp only [Run.ok_bind, hc]
  rfl

theorem eriPairs_continue (hc : srcBit e io1 = .ok (1, io2)) :
    eriPairs e (left + 1) code base pairs io = eriPairs e left (2 * code + d) (2 * base) (pairs + 1) io2 := by
  rw [eriPairs, hd]
  simp only [Run.ok_bind, hc]
  rfl

/-- No pair may follow the 31st. -/
theorem eriPairs_overlong (hc : srcBit e io1 = .ok (1, io2)) :
    eriPairs e 0 code base pairs io = .error ⟨.formatError, wordOf io2.pos⟩ := by
  unfold eriPairs
  rw [hd]
  simp only [Run.ok_bind, hc]
  rfl

end

/-- The pairs of the low `n + 1` bits of `v` append them to the bits read so far. -/
theorem eriPairs_feeds {e : Env} {n v left code base pairs : Nat} {io : Io} (hn : n ≤ left)
    (h : Feeds e io.buf io.pos (eriTail (n + 1) v)) : eriPairs e left code base pairs io =
      .ok (2 ^ (n + 1) * code + v % 2 ^ (n + 1) + 2 ^ n * base, 1 + 2 * (pairs + (n + 1)),
        { io with pos := io.pos + 2 * (n + 1) }) := by
  induction n generalizing left code base pairs io with
  | zero =>
    rw [eriTail_succ, if_pos rfl] at h
    rw [eriPairs_last (srcBit_feeds h) (srcBit_feeds (io := { io with pos := io.pos + 1 }) h.tail)]
    simp
  | succ n ih =>
    obtain ⟨left, rfl⟩ : ∃ k, left = k + 1 := ⟨left - 1, by omega⟩
    rw [eriTail_succ, if_neg (Nat.succ_ne_zero n)] at h
    rw [eriPairs_continue (srcBit_feeds h) (srcBit_feeds (io := { io with pos := io.pos + 1 }) h.tail),
      ih (io := { io with pos := io.pos + 1 + 1 }) (by omega) h.tail.tail]
    have hvalue : 2 ^ (n + 1) * (2 * code + v / 2 ^ (n + 1) % 2) + v % 2 ^ (n + 1) + 2 ^ n * (2 * base)
        = 2 ^ (n + 2) * code + v % 2 ^ (n + 2) + 2 ^ (n + 1) * base := by
      have hmod : v % 2 ^ (n + 2) = v % 2 ^ (n + 1) + 2 ^ (n + 1) * (v / 2 ^ (n + 1) % 2) := Nat.mod_pow_succ
      rw [hmod]
      ring
    have hlen : pairs + 1 + (n + 1) = pairs + (n + 1 + 1) := by omega
    have hpos : io.pos + 1 + 1 + 2 * (n + 1) = io.pos + 2 * (n + 1 + 1) := by omega
    simp only [hvalue, hlen, hpos]

/-- The ERI gamma code of a 32-bit value decodes to it. -/
theorem eriGamma_feeds {e : Env} {io : Io} {v : Nat} (h1 : 1 ≤ v) (hv : v < 2 ^ 32) (h : Feeds e io.buf io.pos (eriCode v)) :
    eriGamma e io = .ok (v, 2 * v.log2 + 1, { io with pos := io.pos + (2 * v.log2 + 1) }) := by
  by_cases hone : v = 1
  · subst hone
    rw [eriGamma, srcBit_feeds (bits := []) h]
    rfl
  · have hlow : 2 ^ v.log2 ≤ v := Nat.log2_self_le (by omega)
    have hhigh : v < 2 ^ (v.log2 + 1) := Nat.lt_log2_self
    have hmax : v.log2 < 32 := (Nat.log2_lt (by omega)).mpr hv
    obtain ⟨n, hn⟩ : ∃ n, v.log2 = n + 1 := ⟨v.log2 - 1, by
      have : v.log2 ≠ 0 := fun h0 => by rw [h0] at hhigh; omega
      omega⟩
    rw [eriCode_eq_tail hone] at h
    rw [hn] at h hlow hhigh hmax ⊢
    have hpairs := eriPairs_feeds (left := 30) (code := 0) (base := 2) (pairs := 0) (io := { io with pos := io.pos + 1 })
      (by omega) h.tail
    have hvalue : 2 ^ (n + 1) * 0 + v % 2 ^ (n + 1) + 2 ^ n * 2 = v := by
      rw [Nat.mod_eq_sub_mod hlow, Nat.mod_eq_of_lt (by rw [Nat.pow_succ] at hhigh; omega), ← Nat.pow_succ]
      omega
    have hlen : 1 + 2 * (0 + (n + 1)) = 2 * (n + 1) + 1 := by omega
    have hpos : io.pos + 1 + 2 * (n + 1) = io.pos + (2 * (n + 1) + 1) := by omega
    rw [eriGamma, srcBit_feeds h]
    refine hpairs.trans ?_
    simp only [hvalue, hlen, hpos]

/-! ## The commands (R305, R306) -/

/-- Settles O35: the two codes as their loops read them (`eriGamma_feeds`, `runGamma_feeds`). -/
theorem gammaCodesDecode : Obligations.GammaCodesDecode := by
  intro s v h1 hv hs
  refine ⟨fun hf => ?gamma, fun hf => ?runlen⟩
  case gamma =>
    refine runCommand_complete (after := s.loseSrcPos.endDraws) (checkSrc_ok hs) ?_
    rw [eriGamma_feeds (e := s.env) (io := s.io) h1 hv (feeds_of_holdsBits hf)]
    rfl
  case runlen =>
    refine runCommand_complete (after := s.loseSrcPos.endDraws) (checkSrc_ok hs) ?_
    rw [runGamma_feeds (e := s.env) (io := s.io) h1 hv (feeds_of_holdsBits hf), show s.env.lsb = s.lsb from rfl, runCode_length]
    rfl

end Sys2Proof.Machine
end

section
/-! PROOFS. GOL_VALUE (43_golomb_gamma.md R316, R318, R319): the quotient read bit by bit or taken from behind an empty window, the
table's length, and the two errors. -/

namespace Sys2Proof.Machine

/-! ## The table's length (R316) -/

theorem golombBounds_length (n : BitVec 2) : (golombBounds n).length = 9 := by revert n; decide

/-- The length the statement describes is the one of the sums. -/
theorem golombLength_of_isGolombLength {g : Gol} {k : Nat} (h : isGolombLength g.a.toNat g.n k) : golombLength g = k := by
  obtain ⟨hk, habove, hbelow⟩ := h
  have hlen := golombBounds_length g.n
  rw [List.getD_eq_getElem _ _ (by omega)] at habove
  refine (List.findIdx_eq (by omega)).mpr ⟨decide_eq_true habove, fun j hj => ?_⟩
  have := hbelow j hj
  rw [List.getD_eq_getElem _ _ (by omega)] at this
  exact decide_eq_false (by omega)

/-! ## An empty window (R318) -/

/-- A window over source bytes without a one bit is empty. -/
theorem window32_eq_zero {e : Env} {io : Io} (hlsb : e.lsb = true) (hin : io.pos / 8 + 4 ≤ e.srcLen)
    (hzero : ∀ j < 32 - io.pos % 8, bitNat (bitAt e io.buf (io.pos + j)) = 0) : window32 e io = 0 := by
  refine Nat.eq_of_testBit_eq fun j => ?_
  rw [window32, Nat.testBit_shiftRight, testBit_leNat, Nat.zero_testBit]
  by_cases hj : io.pos % 8 + j < 32
  · have hbit : (io.buf.get (e.srcBase + (io.pos + j) / 8)).getLsbD ((io.pos + j) % 8) = false := by
      have := hzero j (by omega)
      unfold bitAt bitNat at this
      simpa [hlsb] using this
    have hoff : io.pos / 8 + (io.pos % 8 + j) / 8 = (io.pos + j) / 8 := by omega
    have hmod : (io.pos % 8 + j) % 8 = (io.pos + j) % 8 := by omega
    rw [List.getD_eq_getElem _ _ (by simp; omega), List.getElem_map, List.getElem_range, hoff, hmod, spanByte,
      if_pos (by omega), hbit]
  · rw [List.getD_eq_default _ _ (by simp; omega)]
    exact BitVec.getLsbD_zero

/-- Behind an empty window the quotient is a whole byte. -/
theorem golPrefix_escape {e : Env} {io : Io} (hlsb : e.lsb = true) (hw : window32 e io = 0) (hin : io.pos / 8 + 4 < e.srcLen) :
    golPrefix e io = .ok ((io.buf.get (e.srcBase + (io.pos / 8 + 4))).toNat, { io with pos := 8 * (io.pos / 8 + 5) }) := by
  rw [golPrefix, hlsb, hw]
  show golEscape e io = _
  unfold golEscape
  dsimp only
  rw [if_neg (by omega), Nat.add_assoc, Nat.mul_comm]

/-! ## `GolValue()` (R318) -/

/-- A value behind its quotient, however that was read. -/
theorem golValue_of_golPrefix {e : Env} {g : Gol} {io io1 : Io} {v : Nat} (ha : g.a.toNat < 1024)
    (hp : golPrefix e io = .ok (v / 2 ^ golombLength g, io1))
    (h : Feeds e io1.buf io1.pos (fieldBits e.lsb (golombLength g) (v % 2 ^ golombLength g))) :
    golValue e g io = .ok ⟨residualOf v, golombLength g, golombNext g v, { io1 with pos := io1.pos + golombLength g }⟩ := by
  have hvalue : v / 2 ^ golombLength g * 2 ^ golombLength g + v % 2 ^ golombLength g = v := Nat.div_add_mod' v _
  rw [golValue, if_neg (by omega), golTable_eq_golombLength, hp]
  simp only [Run.ok_bind, srcBits_feeds h, Nat.mod_mod, hvalue]
  rfl

theorem golValue_badAccumulator {e : Env} {g : Gol} (ha : 1024 ≤ g.a.toNat) (io : Io) :
    golValue e g io = .error ⟨.formatError, g.a⟩ := if_pos ha

theorem golValue_golPrefix_error {e : Env} {g : Gol} {io : Io} {r : Raise} (ha : g.a.toNat < 1024)
    (hp : golPrefix e io = .error r) : golValue e g io = .error r := by
  rw [golValue, if_neg (by omega), hp]
  rfl

/-- As many zeros as the loop may read are an error at the cursor behind them (R301, R318). -/
theorem runZeros_overlong {e : Env} {left n q : Nat} {io : Io} (hn : n = left + 1)
    (h : Feeds e io.buf io.pos (List.replicate n 0)) :
    runZeros e left q io = .error ⟨.formatError, wordOf (io.pos + n)⟩ := by
  subst hn
  induction left generalizing q io with
  | zero =>
    unfold runZeros
    rw [srcBit_feeds h]
    rfl
  | succ left ih =>
    rw [List.replicate_succ] at h
    unfold runZeros
    rw [srcBit_feeds h]
    refine (ih (io := { io with pos := io.pos + 1 }) h.tail).trans ?_
    simp [Nat.add_assoc, Nat.add_comm 1]

/-! ## GOL_VALUE (R319) -/

/-- A word a few bits behind the cursor. -/
theorem pos_add_eq_wordOf (s : State) (n : Nat) : s.src.pos + BitVec.ofNat 32 n = wordOf (s.io.pos + n) := by
  simp [wordOf, State.io, BitVec.ofNat_add]

theorem exec_golValue_ok {s : State} {c : GolCode} (hs : s.srcInBounds = true) (h : golValue s.env s.gol s.io = .ok c) :
    exec .golValue s = .next (((({ s with gol := c.gol }.atBit c.io.pos).setResult c.residual).setResult1
      (wordOf c.k)).finished) := by
  refine runCommand_complete (after := s.loseSrcPos.loseGol.endDraws) (checkSrc_ok hs) ?_
  rw [h]
  rfl

theorem golValue_raises {s : State} {r : Raise} (hs : s.srcInBounds = true) (h : golValue s.env s.gol s.io = .error r) :
    raises .golValue s 5 2 r.err.code r.info :=
  raises_of_body (by decide) (by decide) rfl (checkSrc_ok hs) (by rw [h]; rfl)

/-- A quotient is read bit by bit in the MSB-first order, and in the other when its one is in the window (R318). -/
theorem golPrefix_unary {s : State} {k v : Nat} (hw : s.lsb = false ∨ s.src.pos.toNat % 8 + v / 2 ^ k < 32)
    (hf : Feeds s.env s.buf s.src.pos.toNat (golombCode s.lsb k v)) : golPrefix s.env s.io = golUnary s.env 255 0 s.io := by
  cases hl : s.lsb with
  | false => exact golPrefix_msb hl _
  | true =>
    obtain ⟨hin, hone⟩ := hf.right.head
    rw [List.length_replicate] at hin hone
    exact golPrefix_window (window32_ne_zero hl (hw.resolve_left (by simp [hl])) hin hone)

/-- Settles O36: the quotient in each form, then the field behind it (`golValue_feeds`, `golValue_of_golPrefix`). -/
theorem golValueDecodesCode : Obligations.GolValueDecodesCode := by
  refine ⟨fun s hs => ⟨fun ha => ?accumulator, fun ha hlsb hf => ?zeros⟩, fun s k v hs ha hk hq => ?value⟩
  case accumulator => exact golValue_raises (r := ⟨.formatError, s.gol.a⟩) hs (golValue_badAccumulator ha _)
  case zeros =>
    have hzeros := runZeros_overlong (q := 0) (io := s.io) (left := 255) (Eq.refl 256) (feeds_of_holdsBits hf)
    have hprefix : golPrefix s.env s.io = .error ⟨.formatError, wordOf (s.io.pos + 256)⟩ := by
      rw [golPrefix_msb hlsb, golUnary_eq_runZeros, hzeros]
    rw [← pos_add_eq_wordOf] at hprefix
    exact golValue_raises (r := ⟨.formatError, s.src.pos + 256⟩) hs (golValue_golPrefix_error ha hprefix)
  case value =>
    obtain rfl := golombLength_of_isGolombLength hk
    refine ⟨fun hw hf => ?unary, fun hlsb hzero hbyte hf => ?escape⟩
    case unary =>
      have hfeeds := feeds_of_holdsBits hf
      have hvalue := golValue_feeds (io := s.io) (golPrefix_unary hw hfeeds) ha hq hfeeds
      rw [exec_golValue_ok hs hvalue, golombCode_length]
      rfl
    case escape =>
      obtain ⟨hin, hget⟩ := hbyte
      have hin : s.io.pos / 8 + 4 < s.env.srcLen := hin
      have hwindow : window32 s.env s.io = 0 :=
        window32_eq_zero hlsb hin.le fun j hj => (bitNat_bitAt s _).trans (hzero j hj)
      have hquot : (s.io.buf.get (s.env.srcBase + (s.io.pos / 8 + 4))).toNat = v / 2 ^ golombLength s.gol := by
        refine (congrArg BitVec.toNat (hget 0 (by simp))).trans ?_
        exact Nat.mod_eq_of_lt (Nat.lt_succ_of_le hq)
      have hprefix := golPrefix_escape hlsb hwindow hin
      rw [hquot] at hprefix
      have hfield := feeds_of_holdsBits hf
      rw [← hlsb] at hfield
      have hrun := exec_golValue_ok hs (golValue_of_golPrefix ha hprefix hfield)
      exact hrun

end Sys2Proof.Machine
end

section
/-! PROOFS. Sources that end inside a code (60_exceptions.md R506): every read up to the end answers what the code says, and the
next one raises TruncatedInput there. -/

namespace Sys2Proof.Machine

/-! ## A source that ends inside a code -/

/-- From place `p` on a stream of `size` places, `at_ i` at place `i`, holds the beginning of `code` and ends before the code
does. -/
structure EndsInside {α : Type} (size : Nat) (at_ : Nat → α) (p : Nat) (code : List α) : Prop where
  start : p ≤ size
  short : size < p + code.length
  agrees : ∀ i, (h : i < code.length) → p + i < size → at_ (p + i) = code[i]

namespace EndsInside

variable {α : Type} {size p : Nat} {at_ at' : Nat → α} {code xs ys : List α} {b : α}

/-- The stream ends behind a proper beginning of the code. -/
theorem of_beginning {pre : List α} (hpre : pre <+: code) (hne : pre ≠ code) (hend : p + pre.length = size)
    (hat : ∀ i, (h : i < pre.length) → at_ (p + i) = pre[i]) : EndsInside size at_ p code := by
  have hlen : pre.length < code.length := Nat.lt_of_le_of_ne hpre.length_le fun h => hne (hpre.eq_of_length h)
  exact ⟨by omega, by omega, fun i hi hin => (hat i (by omega)).trans (hpre.getElem _)⟩

theorem ne_nil (h : EndsInside size at_ p code) : code ≠ [] := by
  rintro rfl
  exact absurd (Nat.lt_of_lt_of_le h.short h.start) (Nat.lt_irrefl _)

theorem head (h : EndsInside size at_ p (b :: code)) (hp : p < size) : at_ p = b := h.agrees 0 (Nat.succ_pos _) hp

theorem tail (h : EndsInside size at_ p (b :: code)) (hp : p < size) : EndsInside size at_ (p + 1) code := by
  have hshort := h.short
  rw [List.length_cons] at hshort
  refine ⟨hp, by omega, fun i hi hin => ?_⟩
  rw [Nat.add_assoc, Nat.add_comm 1]
  exact h.agrees (i + 1) (Nat.succ_lt_succ hi) (by omega)

/-- Of a code in two parts the stream ends inside the first, or holds it and ends inside the second. -/
theorem append (h : EndsInside size at_ p (xs ++ ys)) : EndsInside size at_ p xs
    ∨ (p + xs.length ≤ size ∧ ∀ i, (hi : i < xs.length) → at_ (p + i) = xs[i]) ∧ EndsInside size at_ (p + xs.length) ys := by
  obtain ⟨hstart, hshort, hat⟩ := h
  rw [List.length_append] at hshort
  have hleft : ∀ i, (hi : i < xs.length) → p + i < size → at_ (p + i) = xs[i] := fun i hi hin => by
    rw [hat i (by rw [List.length_append]; omega) hin, List.getElem_append_left hi]
  by_cases hxs : size < p + xs.length
  · exact .inl ⟨hstart, hxs, hleft⟩
  · refine .inr ⟨⟨by omega, fun i hi => hleft i hi (by omega)⟩, by omega, by omega, fun i hi hin => ?_⟩
    rw [Nat.add_assoc, hat (xs.length + i) (by rw [List.length_append]; omega) (by omega),
      List.getElem_append_right (Nat.le_add_right _ _)]
    simp

theorem congr (h : EndsInside size at_ p code) (hat : ∀ i < size, at' i = at_ i) : EndsInside size at' p code :=
  ⟨h.start, h.short, fun i hi hin => (hat _ hin).trans (h.agrees i hi hin)⟩

end EndsInside

/-- From bit cursor `p` on the source holds the beginning of `code` and ends before the code does. -/
def BitsEnd (e : Env) (buf : Store 8) (p : Nat) (code : List Nat) : Prop :=
  EndsInside (8 * e.srcLen) (fun i => bitNat (bitAt e buf i)) p code

/-- From byte offset `q` on the source holds the beginning of `code` and ends before the code does. -/
def BytesEnd (e : Env) (buf : Store 8) (q : Nat) (code : List Byte) : Prop :=
  EndsInside e.srcLen (fun i => buf.get (e.srcBase + i)) q code

theorem bitsEnd_of_holdsBits {s : State} {bits code : List Nat} (hpre : bits <+: code) (hne : bits ≠ code)
    (hend : s.src.pos.toNat + bits.length = 8 * s.src.len.toNat) (hf : s.holdsBits s.src.pos.toNat bits) :
    BitsEnd s.env s.buf s.src.pos.toNat code :=
  .of_beginning hpre hne hend (feeds_of_holdsBits hf).2

theorem bytesEnd_of_holdsBytes {s : State} {pre code : List Byte} (hpre : pre <+: code) (hne : pre ≠ code)
    (hend : s.nextByte + pre.length = s.src.len.toNat) (hf : s.holdsBytes s.nextByte pre) :
    BytesEnd s.env s.buf s.nextByte code :=
  .of_beginning hpre hne hend fun i hi => (congrArg s.buf.get (Nat.add_assoc ..).symm).trans (hf.2 i hi)

/-- No byte of the destination span is in the source span. -/
def SpansApart (e : Env) : Prop := ∀ a < e.dstLen, ∀ k < e.srcLen, e.dstBase + a ≠ e.srcBase + k

theorem spansApart_of_calm {s : State} (h : s.calm) : SpansApart s.env := fun _ ha _ hk =>
  apart_of_calm h (Nat.le_add_right ..) (Nat.add_lt_add_left ha _) hk

section

variable {e : Env} {io : Io} (hapart : SpansApart e) (hroom : io.out < e.dstLen) (b : Byte)
include hapart hroom

theorem dstPut_get_source {k : Nat} (hk : k < e.srcLen) : (dstPut e io b).buf.get (e.srcBase + k) = io.buf.get (e.srcBase + k) :=
  dstPut_get_out (hapart _ hroom _ hk).symm

theorem BitsEnd.dstPut {p : Nat} {code : List Nat} (h : BitsEnd e io.buf p code) : BitsEnd e (dstPut e io b).buf p code :=
  h.congr fun i hi => by
    have hget := dstPut_get_source hapart hroom b (k := i / 8) (by omega)
    unfold bitAt
    rw [hget]

theorem BytesEnd.dstPut {q : Nat} {code : List Byte} (h : BytesEnd e io.buf q code) : BytesEnd e (dstPut e io b).buf q code :=
  h.congr fun _ hi => dstPut_get_source hapart hroom b hi

end

/-! ## The reads at the end of the source -/

/-- TruncatedInput with the cursor at the end of the source (R506). -/
def endOfSource (e : Env) : Raise := ⟨.truncatedInput, wordOf (8 * e.srcLen)⟩

section

variable {e : Env} {io : Io}

theorem srcBit_endOfSource (h : io.pos = 8 * e.srcLen) : srcBit e io = .error (endOfSource e) := by
  rw [srcBit_end h.ge, h]
  rfl

theorem srcByte_endOfSource (h : alignUp io.pos = 8 * e.srcLen) : srcByte e io = .error (endOfSource e) := by
  rw [srcByte_end h.ge, h]
  rfl

/-- A field longer than the rest of the source. -/
theorem srcBitsFrom_short {n i v : Nat} (hp : io.pos ≤ 8 * e.srcLen) (hn : 8 * e.srcLen < io.pos + n) :
    srcBitsFrom e n i v io = .error (endOfSource e) := by
  induction n generalizing i v io with
  | zero => omega
  | succ n ih =>
    rw [srcBitsFrom]
    rcases Nat.eq_or_lt_of_le hp with hend | hlt
    · rw [srcBit_endOfSource hend]
    · rw [srcBit_of_lt hlt]
      exact ih (io := { io with pos := io.pos + 1 }) hlt (by simp; omega)

theorem srcBits_short {n : Nat} (hp : io.pos ≤ 8 * e.srcLen) (hn : 8 * e.srcLen < io.pos + n) :
    srcBits e n io = .error (endOfSource e) := srcBitsFrom_short hp hn

theorem srcBits_bitsEnd {n v : Nat} (h : BitsEnd e io.buf io.pos (fieldBits e.lsb n v)) :
    srcBits e n io = .error (endOfSource e) :=
  srcBits_short h.start (by simpa only [fieldBits_length] using h.short)

/-- The next bit of a code the source ends inside. -/
theorem srcBit_bitsEnd {b : Nat} {code : List Nat} (h : BitsEnd e io.buf io.pos (b :: code)) :
    srcBit e io = .error (endOfSource e)
    ∨ srcBit e io = .ok (b, { io with pos := io.pos + 1 }) ∧ BitsEnd e io.buf (io.pos + 1) code := by
  rcases Nat.eq_or_lt_of_le h.start with hend | hlt
  · exact .inl (srcBit_endOfSource hend)
  · have hb : bitNat (bitAt e io.buf io.pos) = b := h.head hlt
    exact .inr ⟨by rw [srcBit_of_lt hlt, hb], h.tail hlt⟩

/-- The next byte of a code the source ends inside. -/
theorem srcByte_bytesEnd {b : Byte} {q : Nat} {code : List Byte} (hp : alignUp io.pos = 8 * q)
    (h : BytesEnd e io.buf q (b :: code)) : srcByte e io = .error (endOfSource e)
    ∨ srcByte e io = .ok (b, { io with pos := 8 * (q + 1) }) ∧ BytesEnd e io.buf (q + 1) code := by
  rcases Nat.eq_or_lt_of_le h.start with hend | hlt
  · exact .inl (srcByte_endOfSource (by rw [hp, hend]))
  · have hb : io.buf.get (e.srcBase + q) = b := h.head hlt
    exact .inr ⟨by rw [srcByte_at hp hlt, hb], h.tail hlt⟩

end

/-- A command whose body ends at the end of the source. -/
theorem raises_endOfSource {i : Instr} {s after : State} {checks : Run Unit} {body : Run State}
    (hi : exec i s = runCommand s i.cmdId checks body after) (hc : checks = .ok ()) (hb : body = .error (endOfSource s.env)) :
    raises i s i.cmdId.unit i.cmdId.op 2 (BitVec.ofNat 32 (8 * s.src.len.toNat)) :=
  raises_of_body (r := endOfSource s.env) (cmdId_lt i).1 (cmdId_lt i).2 hi hc hb

/-! ## Gamma codes and coded values (43_golomb_gamma.md R300, R301, R318) -/

section

variable {e : Env} {io : Io}

/-- The next pair of a code the source ends inside. -/
theorem eriPairs_pair_bitsEnd {d c left code base pairs : Nat} {rest : List Nat}
    (h : BitsEnd e io.buf io.pos (d :: c :: rest)) : eriPairs e left code base pairs io = .error (endOfSource e)
    ∨ (srcBit e io = .ok (d, { io with pos := io.pos + 1 })
      ∧ srcBit e { io with pos := io.pos + 1 } = .ok (c, { io with pos := io.pos + 1 + 1 })
      ∧ BitsEnd e io.buf (io.pos + 1 + 1) rest) := by
  rcases srcBit_bitsEnd h with hd | ⟨hd, h⟩
  · left
    unfold eriPairs
    rw [hd]
    rfl
  rcases srcBit_bitsEnd (io := { io with pos := io.pos + 1 }) h with hc | ⟨hc, h⟩
  · left
    unfold eriPairs
    rw [hd]
    simp only [Run.ok_bind, hc, Run.error_bind]
  · exact .inr ⟨hd, hc, h⟩

theorem eriPairs_bitsEnd {n v left code base pairs : Nat} (hn : n ≤ left)
    (h : BitsEnd e io.buf io.pos (eriTail (n + 1) v)) : eriPairs e left code base pairs io = .error (endOfSource e) := by
  induction n generalizing left code base pairs io with
  | zero =>
    rw [eriTail_succ] at h
    exact (eriPairs_pair_bitsEnd h).resolve_right fun ⟨_, _, h⟩ => h.ne_nil rfl
  | succ n ih =>
    obtain ⟨left, rfl⟩ : ∃ k, left = k + 1 := ⟨left - 1, by omega⟩
    rw [eriTail_succ, if_neg (Nat.succ_ne_zero n)] at h
    rcases eriPairs_pair_bitsEnd h with hp | ⟨hd, hc, h⟩
    · exact hp
    · rw [eriPairs_continue hd hc]
      exact ih (io := { io with pos := io.pos + 1 + 1 }) (by omega) h

theorem eriGamma_bitsEnd {v : Nat} (h1 : 1 ≤ v) (hv : v < 2 ^ 32) (h : BitsEnd e io.buf io.pos (eriCode v)) :
    eriGamma e io = .error (endOfSource e) := by
  by_cases hone : v = 1
  · rw [eriCode, if_pos hone] at h
    rcases srcBit_bitsEnd h with hb | ⟨-, h⟩
    · rw [eriGamma, hb]; rfl
    · exact absurd rfl h.ne_nil
  · rw [eriCode_eq_tail hone] at h
    rcases srcBit_bitsEnd h with hb | ⟨hb, h⟩
    · rw [eriGamma, hb]; rfl
    · obtain ⟨n, hn⟩ : ∃ n, v.log2 = n + 1 := Nat.exists_eq_succ_of_ne_zero fun h0 => (h0 ▸ h).ne_nil rfl
      have hlog : v.log2 < 32 := (Nat.log2_lt (by omega)).mpr hv
      rw [hn] at h
      rw [eriGamma, hb]
      exact eriPairs_bitsEnd (io := { io with pos := io.pos + 1 }) (by omega) h

/-- A run of zeros up to its one. -/
theorem runZeros_bitsEnd {z left q : Nat} (hz : z ≤ left) (h : BitsEnd e io.buf io.pos (List.replicate z 0 ++ [1])) :
    runZeros e left q io = .error (endOfSource e) := by
  induction z generalizing left q io with
  | zero =>
    unfold runZeros
    rcases srcBit_bitsEnd h with hb | ⟨-, h⟩
    · rw [hb]; rfl
    · exact absurd rfl h.ne_nil
  | succ z ih =>
    obtain ⟨left, rfl⟩ : ∃ k, left = k + 1 := ⟨left - 1, by omega⟩
    rw [List.replicate_succ, List.cons_append] at h
    unfold runZeros
    rcases srcBit_bitsEnd h with hb | ⟨hb, h⟩
    · rw [hb]; rfl
    · rw [hb]
      exact ih (io := { io with pos := io.pos + 1 }) (by omega) h

/-- Zeros, a one and a field: the source ends inside the zeros and the one, or inside the field behind them. -/
theorem runZeros_field_bitsEnd {z left q n v : Nat} (hz : z ≤ left)
    (h : BitsEnd e io.buf io.pos (List.replicate z 0 ++ 1 :: fieldBits e.lsb n v)) :
    runZeros e left q io = .error (endOfSource e)
    ∨ runZeros e left q io = .ok (q + z, { io with pos := io.pos + z + 1 })
      ∧ srcBits e n { io with pos := io.pos + z + 1 } = .error (endOfSource e) := by
  rw [List.append_cons] at h
  rcases EndsInside.append h with h | ⟨hzeros, hfield⟩
  · exact .inl (runZeros_bitsEnd hz h)
  · rw [List.length_append, List.length_replicate] at hfield
    exact .inr ⟨runZeros_feeds hz hzeros, srcBits_bitsEnd (io := { io with pos := io.pos + z + 1 }) hfield⟩

theorem runGamma_bitsEnd {v : Nat} (h1 : 1 ≤ v) (hv : v < 2 ^ 32) (h : BitsEnd e io.buf io.pos (runCode e.lsb v)) :
    runGamma e io = .error (endOfSource e) := by
  have hlog : v.log2 ≤ 31 := Nat.le_of_lt_succ ((Nat.log2_lt (by omega)).mpr hv)
  unfold runGamma
  rcases runZeros_field_bitsEnd (q := 0) hlog h with hz | ⟨hz, hfield⟩
  · rw [hz]; rfl
  · rw [hz, Run.ok_bind]
    simp only [Nat.zero_add, hfield]
    rfl

theorem golValue_bitsEnd {g : Gol} {v : Nat} (hlsb : e.lsb = false) (ha : g.a.toNat < 1024) (hq : v / 2 ^ golombLength g ≤ 255)
    (h : BitsEnd e io.buf io.pos (golombCode false (golombLength g) v)) : golValue e g io = .error (endOfSource e) := by
  have hprefix := golPrefix_msb hlsb io
  rw [golUnary_eq_runZeros] at hprefix
  rw [← hlsb] at h
  rcases runZeros_field_bitsEnd (q := 0) hq h with hz | ⟨hz, hfield⟩
  · exact golValue_golPrefix_error ha (hprefix.trans hz)
  · rw [golValue, if_neg (by omega), golTable_eq_golombLength, hprefix, hz]
    simp only [Run.ok_bind, hfield, Run.error_bind]

end

end Sys2Proof.Machine
end

section
/-! PROOFS. LZ_DECOMPRESS on a source that ends inside its stream (44_lzss.md R350 to R352, 60_exceptions.md R506). -/

namespace Sys2Proof.Machine

/-! ## Literals of variant 1 (R351) -/

/-- A one bit and a byte are a literal. -/
theorem onsStep_literal {e : Env} {l : LzLoop} {io1 io2 : Io} {v : Nat} (hb : srcBit e l.io = .ok (1, io1))
    (hv : srcBits e 8 io1 = .ok (v, io2)) : onsStep e l = .ok (lzEmit e { l with io := io2 } (BitVec.ofNat 8 v)) := by
  rw [onsStep, hb, Run.ok_bind]
  simp only [if_true, hv, Run.ok_bind]
  rfl

/-- The source ends inside a literal, or the turn stores it and leaves the rest. -/
theorem onsStep_bitsEnd {e : Env} {l : LzLoop} {b : Byte} {rest : List Nat}
    (h : BitsEnd e l.io.buf l.io.pos (1 :: fieldBits e.lsb 8 b.toNat ++ rest)) : onsStep e l = .error (endOfSource e)
    ∨ ∃ v, onsStep e l = .ok (lzEmit e { l with io := { l.io with pos := l.io.pos + 1 + 8 } } v)
      ∧ BitsEnd e l.io.buf (l.io.pos + 1 + 8) rest := by
  rcases srcBit_bitsEnd h with hb | ⟨hb, h⟩
  · left
    rw [onsStep, hb]
    rfl
  rcases EndsInside.append h with h | ⟨hbyte, h⟩
  · left
    rw [onsStep, hb, Run.ok_bind]
    simp only [if_true, srcBits_bitsEnd (io := { l.io with pos := l.io.pos + 1 }) h, Run.error_bind]
  · rw [fieldBits_length] at h
    exact .inr ⟨_, onsStep_literal hb (srcBits_feeds (io := { l.io with pos := l.io.pos + 1 }) hbyte), h⟩

theorem onsFrom_bitsEnd {e : Env} (hapart : SpansApart e) {bytes : List Byte} {l : LzLoop}
    (hroom : l.io.out + bytes.length ≤ e.dstLen) (h : BitsEnd e l.io.buf l.io.pos (onsLiterals e.lsb bytes)) :
    onsFrom e bytes.length l = .error (endOfSource e) := by
  induction bytes generalizing l with
  | nil => exact absurd rfl h.ne_nil
  | cons b rest ih =>
    rw [List.length_cons] at hroom
    rw [onsLiterals, List.flatMap_cons] at h
    rw [List.length_cons, onsFrom, if_neg (by simp [dstFull]; omega)]
    rcases onsStep_bitsEnd h with hstep | ⟨v, hstep, h⟩
    · rw [hstep]
    · rw [hstep]
      exact ih (l := lzEmit e { l with io := { l.io with pos := l.io.pos + 1 + 8 } } v)
        (by show l.io.out + 1 + _ ≤ _; omega) (BitsEnd.dstPut (io := { l.io with pos := l.io.pos + 1 + 8 }) hapart
          (by show l.io.out < _; omega) v h)

/-! ## Literals of variant 0 (R350) -/

/-- The control word before a turn with `k` flags of ones left: at the start it is 0, after a flag byte of ones it shifts down. -/
def OnesLeft (k ctl : Nat) : Prop := k ≤ 7 ∧ (ctl = 2 ^ (9 + k) - 1 ∨ k = 0 ∧ ctl = 0)

/-- After the last flag the turn reads a flag byte. -/
theorem OnesLeft.used {ctl : Nat} (h : OnesLeft 0 ctl) : ctl >>> 1 &&& 0x100 = 0 := by
  obtain ⟨-, rfl | ⟨-, rfl⟩⟩ := h <;> decide

theorem lzFlags_used {e : Env} {ctl : Nat} (h : OnesLeft 0 ctl) {io io1 : Io} {b : Byte} (hb : srcByte e io = .ok (b, io1)) :
    lzFlags e ctl io = .ok (b.toNat ||| 0xFF00, true, io1) := by
  rw [lzFlags, if_pos h.used, hb]

theorem lzFlags_used_error {e : Env} {ctl : Nat} (h : OnesLeft 0 ctl) {io : Io} {r : Raise} (hb : srcByte e io = .error r) :
    lzFlags e ctl io = .error r := by
  rw [lzFlags, if_pos h.used, hb]

/-- A flag left: the turn takes it, a one. -/
theorem lzFlags_left {e : Env} {k ctl : Nat} (h : OnesLeft (k + 1) ctl) (io : Io) :
    ∃ ctl', lzFlags e ctl io = .ok (ctl', false, io) ∧ OnesLeft k ctl' ∧ ctl' &&& 1 = 1 := by
  obtain ⟨hk, rfl | ⟨hk0, -⟩⟩ := h
  · have hword : ∀ k : Fin 7, (2 ^ (9 + (k.val + 1)) - 1) >>> 1 = 2 ^ (9 + k.val) - 1
        ∧ (2 ^ (9 + k.val) - 1) &&& 0x100 ≠ 0 ∧ (2 ^ (9 + k.val) - 1) &&& 1 = 1 := by decide
    obtain ⟨hshift, hflag, hone⟩ := hword ⟨k, by omega⟩
    exact ⟨_, by rw [lzFlags, hshift, if_neg hflag], ⟨by omega, .inl rfl⟩, hone⟩
  · exact absurd hk0 (Nat.succ_ne_zero k)

/-- The flags of the next literal: the source ends before their byte, or the next is a one and the literal follows. -/
theorem lzFlags_bytesEnd {e : Env} {io : Io} {q k ctl : Nat} {b : Byte} {rest : List Byte} (hp : alignUp io.pos = 8 * q)
    (hctl : OnesLeft k ctl) (h : BytesEnd e io.buf q (stdLiterals k (b :: rest))) : lzFlags e ctl io = .error (endOfSource e)
    ∨ ∃ j ctl' fresh p q', lzFlags e ctl io = .ok (ctl', fresh, { io with pos := p }) ∧ OnesLeft j ctl' ∧ ctl' &&& 1 = 1
      ∧ alignUp p = 8 * q' ∧ BytesEnd e io.buf q' (b :: stdLiterals j rest) := by
  cases k with
  | zero =>
    rcases srcByte_bytesEnd hp h with hflag | ⟨hflag, h⟩
    · exact .inl (lzFlags_used_error hctl hflag)
    · exact .inr ⟨7, 0xFFFF, true, 8 * (q + 1), q + 1, lzFlags_used hctl hflag, ⟨by decide, .inl rfl⟩, rfl,
        alignUp_of_mod (by omega), h⟩
  | succ k =>
    obtain ⟨ctl', hflags, hctl', hone⟩ := lzFlags_left (e := e) hctl io
    exact .inr ⟨k, ctl', false, io.pos, q, hflags, hctl', hone, hp, h⟩

/-- A literal of variant 0. -/
theorem stdStep_literal {e : Env} {l : LzLoop} {ctl : Nat} {b : Byte} {io : Io} (hctl : ctl &&& 1 = 1)
    (hb : srcByte e l.io = .ok (b, io)) : stdStep e ctl l = .ok (lzEmit e { l with io := io } b) := by
  rw [stdStep, if_pos hctl, hb]
  rfl

theorem stdStep_literal_error {e : Env} {l : LzLoop} {ctl : Nat} {r : Raise} (hctl : ctl &&& 1 = 1)
    (hb : srcByte e l.io = .error r) : stdStep e ctl l = .error r := by
  rw [stdStep, if_pos hctl, hb]
  rfl

theorem stdFrom_bytesEnd {e : Env} (hapart : SpansApart e) {bytes : List Byte} {l : LzLoop} {q k ctl : Nat}
    (hroom : l.io.out + bytes.length ≤ e.dstLen) (hp : alignUp l.io.pos = 8 * q) (hctl : OnesLeft k ctl)
    (h : BytesEnd e l.io.buf q (stdLiterals k bytes)) : stdFrom e bytes.length ctl l = .error (endOfSource e) := by
  induction bytes generalizing l q k ctl with
  | nil => exact absurd rfl h.ne_nil
  | cons b rest ih =>
    rw [List.length_cons] at hroom
    rw [List.length_cons, stdFrom, if_neg (by simp [dstFull]; omega)]
    rcases lzFlags_bytesEnd hp hctl h with hflags | ⟨j, ctl', fresh, p, q', hflags, hctl', hone, hp', h⟩
    · rw [hflags]
    rw [hflags]
    dsimp only
    rcases srcByte_bytesEnd (io := { l.io with pos := p }) hp' h with hbyte | ⟨hbyte, h⟩
    · rw [stdStep_literal_error (l := { l with io := { l.io with pos := p } }) hone hbyte]
    · rw [stdStep_literal (l := { l with io := { l.io with pos := p } }) hone hbyte]
      exact ih (l := lzEmit e { l with io := { l.io with pos := 8 * (q' + 1) } } b) (q := q' + 1)
        (by show l.io.out + 1 + _ ≤ _; omega) (alignUp_of_mod (by simp [lzEmit])) hctl'
        (BytesEnd.dstPut (io := { l.io with pos := 8 * (q' + 1) }) hapart (by show l.io.out < _; omega) b h)

/-! ## A match of variant 2 (R352) -/

/-- A flag byte's lowest flag. -/
theorem flags_and_one {flags : Byte} (h : flags.getLsbD 0 = true) : (flags.toNat ||| 0xFF00) &&& 1 = 1 := by
  have hbit : (flags.toNat ||| 0xFF00).testBit 0 = true := by rw [Nat.testBit_or, show flags.toNat.testBit 0 = true from h]; rfl
  rw [Nat.and_one_is_mod]
  simpa using hbit

/-- With one byte or two of a match left the source ends inside it, the second when it says that a third follows. -/
theorem tlg5Step_bytesEnd {e : Env} {l : LzLoop} {ctl q : Nat} {b0 b1 x : Byte} (hctl : ctl &&& 1 = 1)
    (hp : alignUp l.io.pos = 8 * q) (h : BytesEnd e l.io.buf q (b0 :: b1 :: if b1.toNat / 16 = 15 then [x] else [])) :
    tlg5Step e ctl l = .error (endOfSource e) := by
  rw [tlg5Step, if_pos hctl]
  rcases srcByte_bytesEnd hp h with h0 | ⟨h0, h⟩
  · rw [h0]
    rfl
  rw [h0, Run.ok_bind]
  dsimp only
  rcases srcByte_bytesEnd (io := { l.io with pos := 8 * (q + 1) }) (alignUp_of_mod (by simp)) h with h1 | ⟨h1, h⟩
  · rw [h1]
    rfl
  rw [h1, Run.ok_bind]
  dsimp only
  by_cases hlong : b1.toNat / 16 = 15
  · rw [if_pos hlong] at h
    rw [if_pos (by rw [Nat.shiftRight_eq_div_pow]; omega)]
    rcases srcByte_bytesEnd (io := { l.io with pos := 8 * (q + 1 + 1) }) (alignUp_of_mod (by simp)) h with h2 | ⟨-, h⟩
    · rw [h2]
      rfl
    · exact absurd rfl h.ne_nil
  · rw [if_neg hlong] at h
    exact absurd rfl h.ne_nil

theorem tlg5From_bytesEnd {e : Env} {l : LzLoop} {fuel q : Nat} {flags b0 b1 x : Byte} (hflag : flags.getLsbD 0 = true)
    (hp : l.io.pos = 8 * q) (hq : q + 1 < e.srcLen)
    (h : BytesEnd e l.io.buf q (flags :: b0 :: b1 :: if b1.toNat / 16 = 15 then [x] else [])) :
    tlg5From e (fuel + 1) 0 l = .error (endOfSource e) := by
  have halign : alignUp l.io.pos = 8 * q := (alignUp_of_mod (by omega)).trans hp
  rw [tlg5From, if_neg (by omega)]
  rcases srcByte_bytesEnd halign h with hflags | ⟨hflags, h⟩
  · rw [lzFlags_used_error ⟨by decide, .inr ⟨rfl, rfl⟩⟩ hflags]
  · rw [lzFlags_used ⟨by decide, .inr ⟨rfl, rfl⟩⟩ hflags]
    dsimp only
    rw [Bool.true_and, if_neg (by simp; omega), tlg5Step_bytesEnd (l := { l with io := { l.io with pos := 8 * (q + 1) } })
      (flags_and_one hflag) (alignUp_of_mod (by simp)) h]

/-! ## LZ_DECOMPRESS (R347) -/

/-- What a variant raises at the end of the source. -/
theorem lzDecompress_raises {s : State} {v : BitVec 4} (hv : v.toNat ≤ 2) (hcalm : s.calm) (hs : s.srcInBounds = true)
    (hd : s.dstInBounds = true) (hready : v.toNat ≠ 1 → s.lz.valid = true) (hw : v.toNat = 2 → s.lz.w = 4096)
    (hroom : s.dst.pos ≠ s.dst.len) (h : lzVariant s v.toNat = .error (endOfSource s.env)) :
    raises (.lzDecompress v) s 6 1 2 (BitVec.ofNat 32 (8 * s.src.len.toNat)) := by
  refine raises_endOfSource (i := .lzDecompress v) rfl ?_ ?_
  · rw [checkLzDecompress_spans hv hready hw, checkSrc_ok hs, checkDst_ok hd]
    rfl
  · rw [markOverlap_of_calm hcalm, lzBody, if_neg hroom, h]
    rfl

/-- As many bytes as there is room for, and not none. -/
theorem room_of_length {s : State} {bytes : List Byte} (hd : s.dstInBounds = true)
    (hlen : bytes.length = s.dst.len.toNat - s.dst.pos.toNat) (hne : bytes ≠ []) :
    s.dst.pos ≠ s.dst.len ∧ s.dst.pos.toNat + bytes.length ≤ s.dst.len.toNat := by
  have hpos : 0 < bytes.length := List.length_pos_of_ne_nil hne
  have hle := (dstInBounds_iff.mp hd).2
  refine ⟨fun h => ?_, by omega⟩
  rw [h] at hlen
  omega

section

variable {s : State} {bytes : List Byte} (hcalm : s.calm) (hs : s.srcInBounds = true) (hd : s.dstInBounds = true)
include hcalm hs hd

theorem lzDecompress_std_short {pre : List Byte} (hlen : bytes.length = s.dst.len.toNat - s.dst.pos.toNat)
    (hvalid : s.lz.valid = true) (hpre : pre <+: stdLiterals 0 bytes) (hne : pre ≠ stdLiterals 0 bytes)
    (hf : s.holdsBytes s.nextByte pre) (hend : s.nextByte + pre.length = s.src.len.toNat) :
    raises (.lzDecompress 0) s 6 1 2 (BitVec.ofNat 32 (8 * s.src.len.toNat)) := by
  have hcode := bytesEnd_of_holdsBytes hpre hne hend hf
  obtain ⟨hroom, hfits⟩ := room_of_length hd hlen fun hnil => (hnil ▸ hcode).ne_nil rfl
  have hloop := stdFrom_bytesEnd (l := ⟨s.lz, s.io⟩) (ctl := 0) (spansApart_of_calm hcalm) hfits (alignUp_nextByte s)
    ⟨by decide, .inr ⟨rfl, rfl⟩⟩ hcode
  rw [hlen] at hloop
  exact lzDecompress_raises (by decide) hcalm hs hd (fun _ => hvalid) nofun hroom hloop

theorem lzDecompress_ons_short {pre : List Nat} (hlen : bytes.length = s.dst.len.toNat - s.dst.pos.toNat)
    (hpre : pre <+: onsLiterals s.lsb bytes) (hne : pre ≠ onsLiterals s.lsb bytes)
    (hf : s.holdsBits s.src.pos.toNat pre) (hend : s.src.pos.toNat + pre.length = 8 * s.src.len.toNat) :
    raises (.lzDecompress 1) s 6 1 2 (BitVec.ofNat 32 (8 * s.src.len.toNat)) := by
  have hcode := bitsEnd_of_holdsBits hpre hne hend hf
  obtain ⟨hroom, hfits⟩ := room_of_length hd hlen fun hnil => (hnil ▸ hcode).ne_nil rfl
  have hloop := onsFrom_bitsEnd (l := ⟨lzOns s.lz, s.io⟩) (spansApart_of_calm hcalm) hfits hcode
  rw [hlen] at hloop
  exact lzDecompress_raises (by decide) hcalm hs hd (fun h => absurd rfl h) nofun hroom hloop

theorem lzDecompress_tlg5_short {pre : List Byte} {flags b0 b1 : Byte} (hroom : s.dst.pos ≠ s.dst.len)
    (hvalid : s.lz.valid = true) (hw : s.lz.w = 4096) (hflag : flags.getLsbD 0 = true)
    (hpre : pre <+: flags :: b0 :: b1 :: if b1.toNat / 16 = 15 then [0] else [])
    (hne : pre ≠ flags :: b0 :: b1 :: if b1.toNat / 16 = 15 then [0] else []) (htwo : 2 ≤ pre.length)
    (hf : s.holdsBytes s.nextByte pre) (hend : s.nextByte + pre.length = s.src.len.toNat) :
    raises (.lzDecompress 2) s 6 1 2 (BitVec.ofNat 32 (8 * s.src.len.toNat)) := by
  have hloop := tlg5From_bytesEnd (l := ⟨s.lz, { s.io with pos := alignUp s.src.pos.toNat }⟩) (fuel := s.src.len.toNat) hflag
    (alignUp_nextByte s) (show s.nextByte + 1 < s.src.len.toNat by omega) (bytesEnd_of_holdsBytes hpre hne hend hf)
  exact lzDecompress_raises (by decide) hcalm hs hd (fun _ => hvalid) (fun _ => hw) hroom hloop

end

end Sys2Proof.Machine
end

section
/-! PROOFS. Short sources and overlong codes end a decoder with its error (60_exceptions.md R506, R507). -/

namespace Sys2Proof.Machine

/-! ## Overlong gamma codes (43_golomb_gamma.md R300) -/

/-- Pairs that all continue, as many as the loop may read, are an error at the cursor behind them. -/
theorem eriPairs_endless {e : Env} {data : List Nat} {left code base pairs : Nat} {io : Io} (hlen : data.length = left + 1)
    (h : Feeds e io.buf io.pos (data.flatMap fun b => [b, 1])) :
    eriPairs e left code base pairs io = .error ⟨.formatError, wordOf (io.pos + 2 * (left + 1))⟩ := by
  induction left generalizing data code base pairs io with
  | zero =>
    obtain ⟨d, rfl⟩ := List.length_eq_one_iff.mp hlen
    exact eriPairs_overlong (srcBit_feeds h) (srcBit_feeds (io := { io with pos := io.pos + 1 }) h.tail)
  | succ left ih =>
    obtain ⟨d, rest, rfl⟩ := List.exists_cons_of_length_eq_add_one hlen
    rw [List.flatMap_cons] at h
    rw [eriPairs_continue (srcBit_feeds h) (srcBit_feeds (io := { io with pos := io.pos + 1 }) h.tail),
      ih (io := { io with pos := io.pos + 1 + 1 }) (Nat.succ.inj hlen) h.tail.tail]
    have hpos : io.pos + 1 + 1 + 2 * (left + 1) = io.pos + 2 * (left + 1 + 1) := by omega
    rw [hpos]

theorem eriGamma_endless {e : Env} {data : List Nat} {io : Io} (hlen : data.length = 31)
    (h : Feeds e io.buf io.pos (1 :: data.flatMap fun b => [b, 1])) :
    eriGamma e io = .error ⟨.formatError, wordOf (io.pos + 63)⟩ := by
  rw [eriGamma, srcBit_feeds h]
  exact eriPairs_endless (io := { io with pos := io.pos + 1 }) hlen h.tail

/-! ## RC_START and RC_DECODE (41_range_coder.md R204, R205, R230) -/

/-- A source with fewer than two bytes left. -/
theorem rcStartup_short {g : RcCfg} {e : Env} {io : Io} {q : Nat} (hp : alignUp io.pos = 8 * q) (hq : q ≤ e.srcLen)
    (h : e.srcLen < q + 2) : rcStartup g e io = .error (endOfSource e) := by
  rw [rcStartup]
  rcases Nat.eq_or_lt_of_le hq with rfl | hlt
  · rw [srcByte_endOfSource hp]
    rfl
  · have hend : e.srcLen = q + 1 := by omega
    rw [srcByte_at hp hlt, Run.ok_bind]
    dsimp only
    rw [srcByte_endOfSource (by rw [hend]; exact alignUp_of_mod (by simp))]
    rfl

theorem nextByte_le {s : State} (hs : s.srcInBounds = true) : s.nextByte ≤ s.src.len.toNat := by
  have := (srcInBounds_iff.mp hs).2
  unfold State.nextByte
  omega

theorem rcStart_short {s : State} (hs : s.srcInBounds = true) (h : s.src.len.toNat < s.nextByte + 2) :
    raises .rcStart s 2 0 2 (BitVec.ofNat 32 (8 * s.src.len.toNat)) := by
  have hstart := rcStartup_short (g := s.rcCfg) (e := s.env) (io := s.io) (alignUp_nextByte s) (nextByte_le hs) h
  exact raises_endOfSource rfl (checkSrc_ok hs) (by rw [hstart]; rfl)

theorem rcDecode_short {s : State} (hs : s.srcInBounds = true) (h : s.src.len.toNat < s.nextByte + 2)
    (hv : s.qs.valid = true) (hd : s.dstInBounds = true) (hroom : s.dst.pos ≠ s.dst.len) :
    raises .rcDecode s 2 4 2 (BitVec.ofNat 32 (8 * s.src.len.toNat)) := by
  have hstart := rcStartup_short (g := s.markOverlap.rcCfg) (e := s.markOverlap.env) (io := s.markOverlap.io)
    (alignUp_nextByte s) (nextByte_le hs) h
  refine raises_endOfSource (i := .rcDecode) rfl ?_ ?_
  · rw [requireReady_ok hv, checkSrc_ok hs, checkDst_ok hd]
    rfl
  · rw [rcDecodeBody, if_neg (show s.markOverlap.dst.pos ≠ s.markOverlap.dst.len from hroom), hstart]
    rfl

/-! ## HUF_GETCODE (42_huffman.md R268, R280) -/

/-- A source that ends on the walk, at an internal node. -/
theorem hufWalk_inner {e : Env} {c : Store 32} {fuel : Nat} {bits : List Nat} {ch : BitVec 32} {io : Io}
    (hinner : hufInner c ch bits) (hbits : Feeds e io.buf io.pos bits) (hend : io.pos + bits.length = 8 * e.srcLen)
    (hfuel : bits.length < fuel) : hufWalk e c fuel ch io = .error (endOfSource e) := by
  induction bits generalizing ch fuel io with
  | nil =>
    obtain ⟨fuel, rfl⟩ : ∃ n, fuel = n + 1 := ⟨fuel - 1, by simp at hfuel; omega⟩
    rw [hufWalk, srcBit_endOfSource hend]
  | cons b rest ih =>
    rw [List.length_cons] at hfuel hend
    obtain ⟨fuel, rfl⟩ : ∃ n, fuel = n + 1 := ⟨fuel - 1, by omega⟩
    obtain ⟨hnode, hinner⟩ := hinner
    rw [hufWalk, srcBit_feeds hbits]
    dsimp only
    rw [if_neg (by simp [isLeafCode, hnode])]
    exact ih (io := { io with pos := io.pos + 1 }) hinner hbits.tail (by show io.pos + 1 + _ = _; omega) (by omega)

theorem hufDecodeTree_inner {e : Env} {t : Tree} {bits : List Nat} {io : Io} (hesc : t.esc ≠ hufNull)
    (hinner : hufInner t.c (t.c.get hufRoot) bits) (hbits : Feeds e io.buf io.pos bits)
    (hend : io.pos + bits.length = 8 * e.srcLen) : hufDecodeTree e t io = .error (endOfSource e) := by
  rw [hufDecodeTree, if_neg hesc, hufWalk_inner hinner hbits hend (by omega)]
  rfl

theorem hufLiteral_short {e : Env} {io : Io} (t : Tree) (hp : io.pos ≤ 8 * e.srcLen) (h : 8 * e.srcLen < io.pos + 8) :
    hufLiteral e t io = .error (endOfSource e) := by
  rw [hufLiteral, srcBits_short hp h]
  rfl

section

variable {s : State} {k : Fin 256} (hv : s.huf.valid = true) (hs : s.srcInBounds = true)
  (hk : k.val = if s.huf.order1 then s.huf.last.toNat else 0)
include hv hs hk

theorem hufGetcode_short (h : hufDecodeTree s.env s.huf.trees[k] s.io = .error (endOfSource s.env)) :
    raises .hufGetcode s 4 1 2 (BitVec.ofNat 32 (8 * s.src.len.toNat)) := by
  obtain rfl := treeIndex_eq hk
  refine raises_endOfSource (i := .hufGetcode) rfl ?_ ?_
  · rw [State.checkHufGetcode, requireReady_ok hv, checkSrc_ok hs]
    rfl
  · rw [h]
    rfl

/-- The first symbol of a tree is a literal of 8 bits. -/
theorem hufGetcode_first_short {bits : List Nat} (hesc : s.huf.trees[k].esc = hufNull)
    (hend : s.src.pos.toNat + bits.length = 8 * s.src.len.toNat) (hlen : bits.length < 8) :
    raises .hufGetcode s 4 1 2 (BitVec.ofNat 32 (8 * s.src.len.toNat)) := by
  refine hufGetcode_short hv hs hk ?_
  rw [hufDecodeTree, if_pos hesc]
  exact hufLiteral_short (e := s.env) (io := s.io) _ (srcInBounds_iff.mp hs).2
    (show 8 * s.src.len.toNat < s.src.pos.toNat + 8 by omega)

theorem hufGetcode_walk_short {bits : List Nat} (hesc : s.huf.trees[k].esc ≠ hufNull)
    (hbits : s.holdsBits s.src.pos.toNat bits) (hend : s.src.pos.toNat + bits.length = 8 * s.src.len.toNat)
    (hinner : hufInner s.huf.trees[k].c (s.huf.trees[k].c.get hufRoot) bits) :
    raises .hufGetcode s 4 1 2 (BitVec.ofNat 32 (8 * s.src.len.toNat)) :=
  hufGetcode_short hv hs hk (hufDecodeTree_inner (e := s.env) (io := s.io) hesc hinner (feeds_of_holdsBits hbits) hend)

/-- Behind an escape comes a literal of 8 bits. -/
theorem hufGetcode_escape_short {bits : List Nat} {node : Nat} (hesc : s.huf.trees[k].esc ≠ hufNull)
    (hbits : s.holdsBits s.src.pos.toNat bits) (hpath : hufPath s.huf.trees[k].c (s.huf.trees[k].c.get hufRoot) bits node)
    (hleaf : s.huf.trees[k].c.get node = hufEscape) (hend : 8 * s.src.len.toNat < s.src.pos.toNat + bits.length + 8) :
    raises .hufGetcode s 4 1 2 (BitVec.ofNat 32 (8 * s.src.len.toNat)) := by
  refine hufGetcode_short hv hs hk ?_
  rw [hufDecodeTree_path (e := s.env) (io := s.io) hesc hpath (feeds_of_holdsBits hbits), if_pos hleaf]
  exact hufLiteral_short (e := s.env) (io := { s.io with pos := s.src.pos.toNat + bits.length }) _ hbits.1 hend

end

/-! ## Unit GOL (43_golomb_gamma.md R305, R306, R319, R320) -/

section

variable {s : State} (hs : s.srcInBounds = true)
include hs

theorem golGamma_raises {r : Raise} (h : eriGamma s.env s.io = .error r) : raises .golGamma s 5 0 r.err.code r.info :=
  raises_of_body (by decide) (by decide) rfl (checkSrc_ok hs) (by rw [h]; rfl)

theorem golRunlen_raises {r : Raise} (h : runGamma s.env s.io = .error r) : raises .golRunlen s 5 1 r.err.code r.info :=
  raises_of_body (by decide) (by decide) rfl (checkSrc_ok hs) (by rw [h]; rfl)

end

theorem golDecode_short {s : State} (h : s.GolReady) (hend : s.src.pos.toNat = 8 * s.src.len.toNat) :
    raises .golDecode s 5 4 2 (BitVec.ofNat 32 (8 * s.src.len.toNat)) := by
  refine raises_endOfSource (i := .golDecode) rfl h.checks ?_
  show golDecodeBody s.golStart = _
  rw [h.start, golDecodeBody, if_neg h.count, srcBit_endOfSource (e := s.env) (io := s.io) hend]
  rfl

/-- Settles O41: each unit's read at the end of the source (`BitsEnd`, `BytesEnd`), and the two overlong codes. -/
theorem shortOrOverlongCodesAreRefused : Obligations.ShortOrOverlongCodesAreRefused := by
  rintro s hs e rfl
  refine ⟨fun h => ⟨rcStart_short hs h, rcDecode_short hs h⟩,
    fun n hd hlen hneed => rcLoop_short hd hs (fun m hm => hneed m hm.le) (hneed n le_rfl) hlen,
    fun k bits hv hk hbits => ⟨fun hesc hend hlen => hufGetcode_first_short hv hs hk hesc hend hlen,
      fun hesc hend hinner => hufGetcode_walk_short hv hs hk hesc hbits hend hinner,
      fun node hesc hpath hleaf hend => hufGetcode_escape_short hv hs hk hesc hbits hpath hleaf hend⟩,
    fun v bits h1 hv hbits hend => ⟨fun hpre hne => ?gamma, fun hpre hne => ?runlen, fun hlsb ha hq hpre hne => ?value⟩,
    fun data hlen _ hbits => ?endless, fun hbits => ?zeros,
    fun hcalm hd hcount hstride hfits hend => golDecode_short ⟨hcalm, hs, hd, hcount, hstride, hfits⟩ hend,
    fun bytes hcalm hd hlen => ⟨fun pre hv hpre hne hf hend => lzDecompress_std_short hcalm hs hd hlen hv hpre hne hf hend,
      fun pre hpre hne hf hend => lzDecompress_ons_short hcalm hs hd hlen hpre hne hf hend⟩,
    fun flags b0 b1 hcalm hd hroom hv hw hflag => ⟨fun hf hend => ?second, fun hf hlong hend => ?third⟩⟩
  case gamma =>
    exact golGamma_raises (r := endOfSource s.env) hs (eriGamma_bitsEnd h1 hv (bitsEnd_of_holdsBits hpre hne hend hbits))
  case runlen =>
    exact golRunlen_raises (r := endOfSource s.env) hs (runGamma_bitsEnd h1 hv (bitsEnd_of_holdsBits hpre hne hend hbits))
  case value =>
    exact golValue_raises (r := endOfSource s.env) hs
      (golValue_bitsEnd hlsb ha hq (bitsEnd_of_holdsBits hpre hne hend hbits))
  case endless =>
    have hgamma := eriGamma_endless (io := s.io) hlen (feeds_of_holdsBits hbits)
    rw [← pos_add_eq_wordOf] at hgamma
    exact golGamma_raises (r := ⟨.formatError, _⟩) hs hgamma
  case zeros =>
    have hzeros := runZeros_overlong (q := 0) (io := s.io) (left := 31) (Eq.refl 32) (feeds_of_holdsBits hbits)
    rw [← pos_add_eq_wordOf] at hzeros
    exact golRunlen_raises (r := ⟨.formatError, _⟩) hs (by rw [runGamma, hzeros]; rfl)
  case second =>
    exact lzDecompress_tlg5_short (b1 := 0) hcalm hs hd hroom hv hw hflag ⟨[0], rfl⟩ (by simp) (by simp) hf hend
  case third =>
    refine lzDecompress_tlg5_short (b0 := b0) (b1 := b1) hcalm hs hd hroom hv hw hflag ?_ ?_ (by simp) hf hend
    · rw [if_pos hlong]
      exact ⟨[0], rfl⟩
    · simp [hlong]

end Sys2Proof.Machine
end

section
/-! PROOFS. The LZ window (44_lzss.md R340, R341): what bytes written to it leave, and what every variant does to it. -/

namespace Sys2Proof.Machine

/-! ## A legal window -/

/-- The window's size is one of R345's and its write position lies in it. -/
def Lz.Legal (z : Lz) : Prop := z.w.toNat ∈ lzWindowSizes ∧ z.r.toNat < z.w.toNat

theorem Lz.Legal.size {z : Lz} (h : z.Legal) : 0 < z.w.toNat ∧ z.w.toNat ≤ 4096 :=
  (by decide : ∀ w ∈ lzWindowSizes, 0 < w ∧ w ≤ 4096) _ h.1

theorem legal_of_w4096 {z : Lz} (h : z.w = 4096) : z.Legal := by
  have hw : z.w.toNat = 4096 := congrArg BitVec.toNat h
  exact ⟨hw ▸ (by decide : 4096 ∈ lzWindowSizes), hw ▸ z.r.isLt⟩

@[simp] theorem winPut_valid (z : Lz) (b : Byte) : (winPut z b).valid = z.valid := rfl

@[simp] theorem winPut_w (z : Lz) (b : Byte) : (winPut z b).w = z.w := rfl

@[simp] theorem winPut_fill (z : Lz) (b : Byte) : (winPut z b).fill = z.fill := rfl

theorem winPut_r {z : Lz} (h : z.Legal) (b : Byte) : (winPut z b).r.toNat = (z.r.toNat + 1) % z.w.toNat := by
  obtain ⟨hpos, hle⟩ := h.size
  have hlt := Nat.mod_lt (z.r.toNat + 1) hpos
  exact Nat.mod_eq_of_lt (show (z.r.toNat + 1) % z.w.toNat < 2 ^ 12 by omega)

theorem Lz.Legal.winPut {z : Lz} (h : z.Legal) (b : Byte) : (winPut z b).Legal :=
  ⟨h.1, winPut_r h b ▸ Nat.mod_lt _ h.size.1⟩

/-- A seeded window is legal for every size and position that LZ_INIT accepts (R345). -/
theorem lzSeeded_legal (z : Lz) {w r0 : Nat} (fill : Byte) (hw : w ∈ lzWindowSizes) (hr : r0 < w) :
    (lzSeeded z w fill r0).w.toNat = w ∧ (lzSeeded z w fill r0).r.toNat = r0 ∧ (lzSeeded z w fill r0).Legal := by
  have hle := (by decide : ∀ w ∈ lzWindowSizes, w ≤ 4096) _ hw
  have hsize : (lzSeeded z w fill r0).w.toNat = w := Nat.mod_eq_of_lt (show w < 2 ^ 13 by omega)
  have hplace : (lzSeeded z w fill r0).r.toNat = r0 := Nat.mod_eq_of_lt (show r0 < 2 ^ 12 by omega)
  refine ⟨hsize, hplace, ?_, ?_⟩
  · rwa [hsize]
  · rwa [hsize, hplace]

/-! ## What every variant keeps of its window -/

section

variable {P : Lz → Prop} (hput : ∀ z b, P z → P (winPut z b))
include hput

theorem lzCopy_keeps (e : Env) (n pos : Nat) {l : LzLoop} (h : P l.lz) : P (lzCopy e n pos l).lz := by
  induction n generalizing pos l with
  | zero => exact h
  | succ n ih =>
    unfold lzCopy
    split
    · exact h
    · exact ih _ (hput _ _ h)

theorem lzCopyStrict_keeps (e : Env) (n pos : Nat) {l l' : LzLoop} (h : P l.lz) (hl : lzCopyStrict e n pos l = .ok l') :
    P l'.lz := by
  induction n generalizing pos l with
  | zero =>
    cases hl
    exact h
  | succ n ih =>
    unfold lzCopyStrict at hl
    split at hl
    · cases hl
    · exact ih _ (hput _ _ h) hl

theorem stdStep_keeps {e : Env} {ctl : Nat} {l l' : LzLoop} (h : P l.lz) (hl : stdStep e ctl l = .ok l') : P l'.lz := by
  unfold stdStep at hl
  split at hl
  · obtain ⟨_, -, hl⟩ := Run.bind_ok.mp hl
    cases hl
    exact hput _ _ h
  · obtain ⟨_, -, hl⟩ := Run.bind_ok.mp hl
    obtain ⟨_, -, hl⟩ := Run.bind_ok.mp hl
    cases hl
    exact lzCopy_keeps hput e _ _ h

theorem stdFrom_keeps {e : Env} {fuel ctl : Nat} {l l' : LzLoop} (h : P l.lz) (hl : stdFrom e fuel ctl l = .ok l') :
    P l'.lz := by
  induction fuel generalizing ctl l with
  | zero =>
    cases hl
    exact h
  | succ fuel ih =>
    unfold stdFrom at hl
    split at hl
    · cases hl
      exact h
    · split at hl
      · cases hl
      · split at hl
        · cases hl
        · next hstep => exact ih (stdStep_keeps hput (by exact h) hstep) hl

theorem onsStep_keeps {e : Env} {l l' : LzLoop} (h : P l.lz) (hl : onsStep e l = .ok l') : P l'.lz := by
  unfold onsStep at hl
  obtain ⟨_, -, hl⟩ := Run.bind_ok.mp hl
  dsimp only at hl
  split at hl
  · obtain ⟨_, -, hl⟩ := Run.bind_ok.mp hl
    cases hl
    exact hput _ _ h
  · obtain ⟨_, -, hl⟩ := Run.bind_ok.mp hl
    obtain ⟨_, -, hl⟩ := Run.bind_ok.mp hl
    cases hl
    exact lzCopy_keeps hput e _ _ h

theorem onsFrom_keeps {e : Env} {fuel : Nat} {l l' : LzLoop} (h : P l.lz) (hl : onsFrom e fuel l = .ok l') : P l'.lz := by
  induction fuel generalizing l with
  | zero =>
    cases hl
    exact h
  | succ fuel ih =>
    unfold onsFrom at hl
    split at hl
    · cases hl
      exact h
    · split at hl
      · cases hl
      · next hstep => exact ih (onsStep_keeps hput h hstep) hl

theorem tlg5Step_keeps {e : Env} {ctl : Nat} {l l' : LzLoop} (h : P l.lz) (hl : tlg5Step e ctl l = .ok l') : P l'.lz := by
  unfold tlg5Step at hl
  split at hl
  · obtain ⟨_, -, hl⟩ := Run.bind_ok.mp hl
    obtain ⟨_, -, hl⟩ := Run.bind_ok.mp hl
    dsimp only at hl
    split at hl
    · obtain ⟨_, -, hl⟩ := Run.bind_ok.mp hl
      exact lzCopyStrict_keeps hput e _ _ (by exact h) hl
    · exact lzCopyStrict_keeps hput e _ _ (by exact h) hl
  · split at hl
    · cases hl
    · obtain ⟨_, -, hl⟩ := Run.bind_ok.mp hl
      cases hl
      exact hput _ _ h

theorem tlg5From_keeps {e : Env} {fuel ctl : Nat} {l l' : LzLoop} (h : P l.lz) (hl : tlg5From e fuel ctl l = .ok l') :
    P l'.lz := by
  induction fuel generalizing ctl l with
  | zero =>
    cases hl
    exact h
  | succ fuel ih =>
    unfold tlg5From at hl
    split at hl
    · cases hl
      exact h
    · split at hl
      · cases hl
      · split at hl
        · cases hl
          exact h
        · split at hl
          · cases hl
          · next hstep => exact ih (tlg5Step_keeps hput (by exact h) hstep) hl

/-- A variant does nothing to the window it starts with but write bytes to it; variant 1 seeds its own (R347). -/
theorem lzVariant_keeps {s : State} {v : Nat} {l : LzLoop} (hs : v ≠ 1 → P s.lz) (hons : P (lzOns s.lz))
    (hl : lzVariant s v = .ok l) : P l.lz := by
  unfold lzVariant at hl
  dsimp only at hl
  split at hl
  · exact stdFrom_keeps hput (hs (by omega)) hl
  · split at hl
    · exact onsFrom_keeps hput (by exact hons) hl
    · next h1 => exact tlg5From_keeps hput (by exact hs h1) hl

end

end Sys2Proof.Machine
end

section
/-! PROOFS. Every step keeps an initialised LZ window legal and a loaded Camellia key derived (44_lzss.md R340, 10_state.md R46). -/

namespace Sys2Proof.Machine

/-- What a command leaves of the units: what they were, what its body answers, or what its execution error leaves. -/
theorem units_of_runCommand {s t after : State} {id : CmdId} {checks : Run Unit} {body : Run State}
    (h : runCommand s id checks body after = .next t) :
    t.units = s.units ∨ (∃ u, checks = .ok () ∧ body = .ok u ∧ t.units = u.units) ∨ t.units = after.units := by
  rcases runCommand_cases h with ⟨r, -, rfl⟩ | ⟨u, hc, hb, rfl⟩ | ⟨r, -, -, rfl⟩
  · exact .inl rfl
  · exact .inr (.inl ⟨u, hc, hb, rfl⟩)
  · exact .inr (.inr rfl)

/-- A command with checks that answers at once. -/
theorem units_of_answer {s t u : State} {id : CmdId} {checks : Run Unit}
    (h : runCommand s id checks (.ok u) s = .next t) : t.units = s.units ∨ (checks = .ok () ∧ t.units = u.units) := by
  rcases units_of_runCommand h with hs | ⟨u', hc, hb, hu⟩ | hs
  · exact .inl hs
  · cases hb
    exact .inr ⟨hc, hu⟩
  · exact .inl hs

/-! ## The window -/

/-- An initialised window is legal. -/
def Lz.Sound (z : Lz) : Prop := z.valid = true → z.Legal

theorem Lz.sound_of_invalid {z : Lz} (h : z.valid = false) : z.Sound := fun hv => absurd (h.symm.trans hv) Bool.false_ne_true

theorem Lz.Sound.winPut {z : Lz} (h : z.Sound) (b : Byte) : (winPut z b).Sound := fun hv => (h hv).winPut b

theorem lzOns_legal (z : Lz) : (lzOns z).Legal := (lzSeeded_legal z 0 (by decide) (by decide)).2.2

theorem lzBody_sound {s u : State} {v : Nat} (hs : s.lz.Sound) (h : lzBody s v = .ok u) : u.lz.Sound := by
  unfold lzBody at h
  split at h
  · cases h
    exact hs
  · obtain ⟨l, hl, h⟩ := Run.bind_ok.mp h
    cases h
    exact lzVariant_keeps (P := Lz.Sound) (fun _ b hz => hz.winPut b) (fun _ => hs) (fun _ => lzOns_legal s.lz) hl

section

variable {s t : State} (hs : s.lz.Sound)
include hs

theorem srstUnit_lzSound {u : BitVec 4} (h : exec (.srstUnit u) s = .next t) : t.lz.Sound := by
  rcases units_of_answer (show execSrstUnit u s = .next t from h) with hkept | ⟨-, hreset⟩
  · rwa [show t.lz = s.lz from congrArg Units.lz hkept]
  · rw [srstBody_eq_withReset] at hreset
    rw [show t.lz = if u.toNat = 6 ∨ u.toNat = 15 then Lz.atReset s.draws else s.lz from congrArg Units.lz hreset]
    split
    · exact Lz.sound_of_invalid rfl
    · exact hs

theorem lzInit_lzSound (h : exec .lzInit s = .next t) : t.lz.Sound := by
  rcases units_of_answer (show execLzInit s = .next t from h) with hkept | ⟨hc, hseeded⟩
  · rwa [show t.lz = s.lz from congrArg Units.lz hkept]
  · obtain ⟨_, hsize, hc⟩ := Run.bind_ok.mp hc
    obtain ⟨_, -, hplace⟩ := Run.bind_ok.mp hc
    rw [show t.lz = lzSeeded s.lz (s.arg 0).toNat ((s.arg 1).setWidth 8) (s.arg 2).toNat from congrArg Units.lz hseeded]
    exact fun _ => (lzSeeded_legal _ _ (List.contains_iff_mem.mp (require_ok.mp hsize))
      (of_decide_eq_true (require_ok.mp hplace))).2.2

theorem lzDecompress_lzSound {v : BitVec 4} (h : exec (.lzDecompress v) s = .next t) : t.lz.Sound := by
  rcases units_of_runCommand (show execLzDecompress v s = .next t from h) with hkept | ⟨u, -, hbody, hu⟩ | hlost
  · rwa [show t.lz = s.lz from congrArg Units.lz hkept]
  · rw [show t.lz = u.lz from congrArg Units.lz hu]
    exact lzBody_sound (s := s.markOverlap) hs hbody
  · exact Lz.sound_of_invalid (congrArg (fun u => u.lz.valid) hlost)

/-- Every command keeps an initialised window legal. -/
theorem exec_lzSound {i : Instr} (h : exec i s = .next t) : t.lz.Sound := by
  have hundriven : i.drives 6 = false → t.lz.Sound := fun hi => by
    obtain ⟨u, hu, rfl | ⟨r, -, rfl⟩⟩ := exec_cases h
    · exact hu.lz hi ▸ hs
    · exact hu.lz hi ▸ hs
  cases i with
  | srstUnit u => exact srstUnit_lzSound hs h
  | lzInit => exact lzInit_lzSound hs h
  | lzDecompress v => exact lzDecompress_lzSound hs h
  | _ => exact hundriven rfl

end

/-! ## The derived key -/

/-- A loaded key has its derived key. -/
def Cam.Derived (c : Cam) : Prop := c.keyed = true → c.ka = camDerive c.kl

theorem Cam.derived_of_unkeyed {c : Cam} (h : c.keyed = false) : c.Derived := fun hk =>
  absurd (h.symm.trans hk) Bool.false_ne_true

section

variable {s t : State} (hs : s.cam.Derived)
include hs

theorem srstUnit_camDerived {u : BitVec 4} (h : exec (.srstUnit u) s = .next t) : t.cam.Derived := by
  rcases units_of_answer (show execSrstUnit u s = .next t from h) with hkept | ⟨-, hreset⟩
  · rwa [show t.cam = s.cam from congrArg Units.cam hkept]
  · rw [srstBody_eq_withReset] at hreset
    rw [show t.cam = if u.toNat = 7 ∨ u.toNat = 15 then Cam.atReset s.draws else s.cam from congrArg Units.cam hreset]
    split
    · exact Cam.derived_of_unkeyed rfl
    · exact hs

theorem camSetkey_camDerived (h : exec .camSetkey s = .next t) : t.cam.Derived := by
  obtain ⟨k, hset⟩ : ∃ k, exec .camSetkey s =
      runCommand s ⟨7, 0⟩ (.ok ()) (.ok { s with cam := ⟨true, k, camDerive k⟩ }) s := ⟨_, rfl⟩
  rcases units_of_answer (hset.symm.trans h) with hkept | ⟨-, hkeyed⟩
  · rwa [show t.cam = s.cam from congrArg Units.cam hkept]
  · rw [show t.cam = ⟨true, k, camDerive k⟩ from congrArg Units.cam hkeyed]
    exact fun _ => rfl

/-- Decryption leaves the key. -/
theorem camDecrypt_camDerived {u : State} {id : CmdId} {checks : Run Unit} (hu : u.cam = s.cam)
    (h : runCommand s id checks (.ok u) s = .next t) : t.cam.Derived := by
  have hcam : t.cam = s.cam := by
    rcases units_of_answer h with hkept | ⟨-, hdone⟩
    · exact congrArg Units.cam hkept
    · exact (congrArg Units.cam hdone).trans hu
  rwa [hcam]

/-- Every command keeps a loaded key derived. -/
theorem exec_camDerived {i : Instr} (h : exec i s = .next t) : t.cam.Derived := by
  have hundriven : i.drives 7 = false → t.cam.Derived := fun hi => by
    obtain ⟨u, hu, rfl | ⟨r, -, rfl⟩⟩ := exec_cases h
    · exact hu.cam hi ▸ hs
    · exact hu.cam hi ▸ hs
  cases i with
  | srstUnit u => exact srstUnit_camDerived hs h
  | camSetkey => exact camSetkey_camDerived hs h
  | camDecblk => exact camDecrypt_camDerived hs (u := { s with buf := s.camDecryptAt s.buf (s.arg 4).toNat s.camOffset }) rfl h
  | camDecrange => exact camDecrypt_camDerived hs (u := State.setResult
      { s with buf := s.camDecryptFrom ((s.arg 7).toNat / 16) (s.arg 4).toNat s.camOffset s.buf }
      (wordOf (16 * ((s.arg 7).toNat / 16)))) rfl h
  | _ => exact hundriven rfl

end

theorem unitInv_iff {s : State} : s.UnitInv ↔ s.lz.Sound ∧ s.cam.Derived :=
  ⟨fun h => ⟨h.window, h.key⟩, fun ⟨hlz, hcam⟩ => ⟨hlz, hcam⟩⟩

/-- Settles O58: a command keeps the window legal (`exec_lzSound`) and the key derived (`exec_camDerived`); a host step leaves the
units or resets them all. -/
theorem stepKeepsUnits : Obligations.StepKeepsUnits := by
  intro s t hs h
  obtain ⟨hlz, hcam⟩ := unitInv_iff.mp hs
  rw [unitInv_iff]
  rcases step_units h with ⟨i, turns, he⟩ | hkept | hreset
  · exact ⟨exec_lzSound (s := { s with turns := turns }) hlz he, exec_camDerived (s := { s with turns := turns }) hcam he⟩
  · rw [show t.lz = s.lz from congrArg Units.lz hkept, show t.cam = s.cam from congrArg Units.cam hkept]
    exact ⟨hlz, hcam⟩
  · exact ⟨Lz.sound_of_invalid (congrArg (fun u => u.lz.valid) hreset),
      Cam.derived_of_unkeyed (congrArg (fun u => u.cam.keyed) hreset)⟩

end Sys2Proof.Machine
end

section
/-! PROOFS. LZ_INIT, and the variants LZ_DECOMPRESS refuses (44_lzss.md R345, R347, R355). -/

namespace Sys2Proof.Machine

/-! ## LZ_INIT (R345) -/

/-- The entries of a seeded window: the fill byte inside its size, what they were elsewhere. -/
theorem lzSeeded_win (z : Lz) (w : Nat) (fill : Byte) (r0 i : Nat) :
    (lzSeeded z w fill r0).win.get i = if i < w then fill else z.win.get i := by
  simp [lzSeeded, fillWindow, Store.get_setSpan]

/-- The three checks of LZ_INIT in their order. -/
def State.checkLzInit (s : State) : Run Unit := do
  require (lzWindowSizes.contains (s.arg 0).toNat) .badOperand (s.arg 0)
  require (decide ((s.arg 1).toNat ≤ 255)) .badOperand (s.arg 1)
  require (decide ((s.arg 2).toNat < (s.arg 0).toNat)) .badOperand (s.arg 2)

/-- LZ_INIT is its checks and the window it seeds. -/
theorem exec_lzInit (s : State) : exec .lzInit s = runCommand s ⟨6, 0⟩ s.checkLzInit
    (.ok { s with lz := lzSeeded s.lz (s.arg 0).toNat ((s.arg 1).setWidth 8) (s.arg 2).toNat }) s := rfl

section

variable {s : State}

theorem checkLzInit_ok (hw : (s.arg 0).toNat ∈ lzWindowSizes) (hf : (s.arg 1).toNat ≤ 255)
    (hr : (s.arg 2).toNat < (s.arg 0).toNat) : s.checkLzInit = .ok () := by
  rw [State.checkLzInit, List.contains_iff_mem.mpr hw, decide_eq_true hf, decide_eq_true hr]
  rfl

theorem checkLzInit_size (hw : (s.arg 0).toNat ∉ lzWindowSizes) : s.checkLzInit = .error ⟨.badOperand, s.arg 0⟩ := by
  have hsize : lzWindowSizes.contains (s.arg 0).toNat = false := by simpa using hw
  rw [State.checkLzInit, hsize]
  rfl

theorem checkLzInit_fill (hw : (s.arg 0).toNat ∈ lzWindowSizes) (hf : 255 < (s.arg 1).toNat) :
    s.checkLzInit = .error ⟨.badOperand, s.arg 1⟩ := by
  rw [State.checkLzInit, List.contains_iff_mem.mpr hw, decide_eq_false (Nat.not_le_of_lt hf)]
  rfl

theorem checkLzInit_position (hw : (s.arg 0).toNat ∈ lzWindowSizes) (hf : (s.arg 1).toNat ≤ 255)
    (hr : (s.arg 0).toNat ≤ (s.arg 2).toNat) : s.checkLzInit = .error ⟨.badOperand, s.arg 2⟩ := by
  rw [State.checkLzInit, List.contains_iff_mem.mpr hw, decide_eq_true hf, decide_eq_false (Nat.not_lt_of_le hr)]
  rfl

/-- LZ_INIT refuses with what its checks raise. -/
theorem lzInit_refused {info : Word} (h : s.checkLzInit = .error ⟨.badOperand, info⟩) :
    exec .lzInit s = .next (s.aborted 6 0 5 info) :=
  refused_of_check ⟨.badOperand, info⟩ (exec_lzInit s) h

/-! ## The variants there are not (R347, R355) -/

/-- A variant's number as the information word. -/
theorem wordOf_variant (v : BitVec 4) : wordOf v.toNat = v.setWidth 32 := BitVec.eq_of_toNat_eq (by simp [wordOf])

theorem checkLzDecompress_unsupported {v : Nat} (hv : v = 3 ∨ v = 4) :
    s.checkLzDecompress v = .error ⟨.unsupportedVariant, wordOf v⟩ := by
  rcases hv with rfl | rfl
  · rfl
  · rfl

theorem checkLzDecompress_reserved {v : Nat} (hv : 5 ≤ v) : s.checkLzDecompress v = .error ⟨.badOperand, wordOf v⟩ := by
  rw [State.checkLzDecompress, decide_eq_false (by omega)]
  rfl

end

/-- Settles O38: LZ_INIT by its three checks in their order and the window it seeds (`lzSeeded_win`); the refused variants by the
first two checks of LZ_DECOMPRESS. -/
theorem lzInitAndRefusedVariants : Obligations.LzInitAndRefusedVariants := by
  intro s
  refine ⟨fun hw hf hr => ?_, fun hw => lzInit_refused (checkLzInit_size hw),
    fun hw hf => lzInit_refused (checkLzInit_fill hw hf),
    fun hw hf hr => lzInit_refused (checkLzInit_position hw hf hr), fun v hv => ?_, fun v hv => ?_⟩
  · obtain ⟨hsize, hplace, -⟩ := lzSeeded_legal s.lz ((s.arg 1).setWidth 8) hw hr
    refine ⟨_, (exec_lzInit s).trans (runCommand_complete (checkLzInit_ok hw hf hr) rfl), rfl, rfl, hsize, hplace, rfl,
      fun i hi => ?_, fun i hi => ?_⟩
    · exact (lzSeeded_win ..).trans (if_pos hi)
    · exact (lzSeeded_win ..).trans (if_neg (Nat.not_lt_of_le hi))
  · have hnum : v.toNat = 3 ∨ v.toNat = 4 := hv.imp (congrArg BitVec.toNat) (congrArg BitVec.toNat)
    rw [← wordOf_variant]
    exact refused_of_check ⟨.unsupportedVariant, _⟩ (show exec (.lzDecompress v) s = _ from rfl)
      (checkLzDecompress_unsupported hnum)
  · rw [← wordOf_variant]
    exact refused_of_check ⟨.badOperand, _⟩ (show exec (.lzDecompress v) s = _ from rfl) (checkLzDecompress_reserved hv)

end Sys2Proof.Machine
end

section
/-! PROOFS. The bytes LZ_DECOMPRESS writes (44_lzss.md R340, R341): what they leave of the window and of BUF, and that a match
repeats the last bytes of the window. -/

namespace Sys2Proof.Machine

/-! ## Bytes written to the window (R340) -/

section

variable (z : Lz) (bytes : List Byte)

theorem foldl_winPut_valid : (bytes.foldl winPut z).valid = z.valid := by
  induction bytes generalizing z with
  | nil => rfl
  | cons b rest ih => rw [List.foldl_cons, ih, winPut_valid]

theorem foldl_winPut_w : (bytes.foldl winPut z).w = z.w := by
  induction bytes generalizing z with
  | nil => rfl
  | cons b rest ih => rw [List.foldl_cons, ih, winPut_w]

theorem foldl_winPut_fill : (bytes.foldl winPut z).fill = z.fill := by
  induction bytes generalizing z with
  | nil => rfl
  | cons b rest ih => rw [List.foldl_cons, ih, winPut_fill]

end

theorem Lz.Legal.foldl_winPut {z : Lz} (h : z.Legal) (bytes : List Byte) : (bytes.foldl Machine.winPut z).Legal := by
  induction bytes generalizing z with
  | nil => exact h
  | cons b rest ih => exact ih (h.winPut b)

theorem foldl_winPut_r {z : Lz} (h : z.Legal) (bytes : List Byte) :
    (bytes.foldl winPut z).r.toNat = (z.r.toNat + bytes.length) % z.w.toNat := by
  induction bytes generalizing z with
  | nil => exact (Nat.mod_eq_of_lt h.2).symm
  | cons b rest ih =>
    rw [List.foldl_cons, ih (h.winPut b), winPut_r h, winPut_w, Nat.mod_add_mod, List.length_cons, Nat.add_assoc,
      Nat.add_comm 1]

/-- The byte written `d` bytes ago, or for a window not yet filled what it was seeded with. -/
def Lz.back (z : Lz) (d : Nat) : Byte := z.win.get ((z.r.toNat + z.w.toNat - d) % z.w.toNat)

/-- The place `d` bytes back moves on with the write position. -/
theorem place_succ {r w d : Nat} (hd : d ≤ w) : ((r + 1) % w + w - d) % w = (r + w - d + 1) % w := by
  have h : (r + 1) % w + (w - d) ≡ r + 1 + (w - d) [MOD w] := (Nat.mod_modEq (r + 1) w).add_right (w - d)
  rw [Nat.add_sub_assoc hd, show r + w - d + 1 = r + 1 + (w - d) by omega]
  exact h

section

variable {z : Lz} (h : z.Legal) (b : Byte)
include h

theorem winPut_back_one : (winPut z b).back 1 = b := by
  obtain ⟨hpos, -⟩ := h.size
  have hplace : ((z.r.toNat + 1) % z.w.toNat + z.w.toNat - 1) % z.w.toNat = z.r.toNat := by
    rw [place_succ hpos, Nat.sub_add_cancel (by omega), Nat.add_mod_right, Nat.mod_eq_of_lt h.2]
  rw [Lz.back, winPut_r h, winPut_w, hplace]
  exact Store.get_set_same ..

theorem winPut_back_succ {d : Nat} (h1 : 1 ≤ d) (hd : d < z.w.toNat) : (winPut z b).back (d + 1) = z.back d := by
  obtain ⟨hpos, -⟩ := h.size
  have hr := h.2
  have hplace : ((z.r.toNat + 1) % z.w.toNat + z.w.toNat - (d + 1)) % z.w.toNat = (z.r.toNat + z.w.toNat - d) % z.w.toNat := by
    rw [place_succ hd]
    congr 1
    omega
  have hother : (z.r.toNat + z.w.toNat - d) % z.w.toNat ≠ z.r.toNat := by
    by_cases hle : d ≤ z.r.toNat
    · rw [show z.r.toNat + z.w.toNat - d = z.r.toNat - d + z.w.toNat by omega, Nat.add_mod_right, Nat.mod_eq_of_lt (by omega)]
      omega
    · rw [Nat.mod_eq_of_lt (by omega)]
      omega
  rw [Lz.back, winPut_r h, winPut_w, hplace]
  exact Store.get_set_other _ _ hother

end

/-- The bytes written are the last ones of the window. -/
theorem foldl_winPut_back {z : Lz} (h : z.Legal) (bytes : List Byte) {d : Nat} (h1 : 1 ≤ d) (hd : d ≤ z.w.toNat) :
    (bytes.foldl winPut z).back d = if d ≤ bytes.length then bytes.getD (bytes.length - d) 0 else z.back (d - bytes.length) := by
  induction bytes generalizing z with
  | nil => rw [List.length_nil, if_neg (by omega)]; rfl
  | cons b rest ih =>
    rw [List.foldl_cons, ih (h.winPut b) hd, List.length_cons]
    rcases Nat.lt_trichotomy d (rest.length + 1) with hlt | rfl | hgt
    · rw [if_pos (by omega), if_pos (by omega), Nat.succ_sub (by omega), List.getD_cons_succ]
    · rw [if_neg (by omega), if_pos (Nat.le_refl _), Nat.add_sub_cancel_left, winPut_back_one h, Nat.sub_self]
      rfl
    · rw [if_neg (by omega), if_neg (by omega), show d - rest.length = d - (rest.length + 1) + 1 by omega,
        winPut_back_succ h b (by omega) (by omega)]

/-! ## The bytes of a match (R341) -/

/-- The `n` bytes of a match that starts `d` bytes back: the last `d` bytes of the window again and again. -/
def matchBytes (z : Lz) (d n : Nat) : List Byte := (List.range n).map fun k => z.back (d - k % d)

@[simp] theorem matchBytes_length (z : Lz) (d n : Nat) : (matchBytes z d n).length = n := by simp [matchBytes]

theorem matchBytes_get {z : Lz} {d n k : Nat} (h : k < (matchBytes z d n).length) :
    (matchBytes z d n)[k] = z.back (d - k % d) := by simp [matchBytes]

/-- After its first byte, which becomes the last of the window, a match goes on as a match from as far back. -/
theorem matchBytes_succ {z : Lz} (h : z.Legal) {d : Nat} (h1 : 1 ≤ d) (hd : d ≤ z.w.toNat) (n : Nat) :
    matchBytes z d (n + 1) = z.back d :: matchBytes (winPut z (z.back d)) d n := by
  rw [matchBytes, List.range_succ_eq_map, List.map_cons, List.map_map, Nat.zero_mod, Nat.sub_zero, matchBytes]
  congr 1
  refine List.map_congr_left fun k _ => ?_
  have hlt := Nat.mod_lt k h1
  show z.back (d - (k + 1) % d) = (winPut z (z.back d)).back (d - k % d)
  rw [← Nat.mod_add_mod]
  by_cases hlast : k % d + 1 = d
  · rw [hlast, Nat.mod_self, Nat.sub_zero, show d - k % d = 1 by omega, winPut_back_one h]
  · rw [Nat.mod_eq_of_lt (by omega), show d - k % d = d - (k % d + 1) + 1 by omega, winPut_back_succ h _ (by omega) (by omega)]

/-! ## What the loops carry after bytes written -/

/-- `l` after it has written `bytes` to the window and the destination, with its source cursor at `p`. -/
def LzLoop.after (l : LzLoop) (e : Env) (bytes : List Byte) (p : Nat) : LzLoop :=
  ⟨bytes.foldl winPut l.lz, ⟨putStrided l.io.buf (e.dstBase + l.io.out) 1 bytes, p, l.io.out + bytes.length⟩⟩

/-- `l` with its source cursor at `p`. -/
def LzLoop.seek (l : LzLoop) (p : Nat) : LzLoop := { l with io := { l.io with pos := p } }

theorem LzLoop.after_append (l : LzLoop) (e : Env) (xs ys : List Byte) (q p : Nat) :
    (l.after e xs q).after e ys p = l.after e (xs ++ ys) p := by
  simp only [LzLoop.after, List.foldl_append, putStrided_append, List.length_append, Nat.mul_one, Nat.add_assoc]

section

variable {e : Env} (ht : e.taint = none)
include ht

/-- One byte more. -/
theorem lzEmit_after (l : LzLoop) (b : Byte) (rest : List Byte) (q p : Nat) :
    (lzEmit e (l.seek q) b).after e rest p = l.after e (b :: rest) p := by
  have hput : (lzEmit e (l.seek q) b).io.buf = putByte none l.io.buf (e.dstBase + l.io.out) b := by rw [← ht]; rfl
  rw [LzLoop.after, hput, LzLoop.after, List.length_cons, Nat.add_comm rest.length, ← Nat.add_assoc]
  rfl

/-- A match stops when the destination is full (R350, R351). -/
theorem lzCopy_eq {n pos d : Nat} {l : LzLoop} (hz : l.lz.Legal) (h1 : 1 ≤ d) (hd : d ≤ l.lz.w.toNat)
    (hpos : pos % l.lz.w.toNat = (l.lz.r.toNat + l.lz.w.toNat - d) % l.lz.w.toNat) :
    lzCopy e n pos l = l.after e (matchBytes l.lz d (min n (e.dstLen - l.io.out))) l.io.pos := by
  induction n generalizing pos l with
  | zero => rw [Nat.zero_min]; rfl
  | succ n ih =>
    rw [lzCopy]
    split
    · next hfull =>
      rw [dstFull, decide_eq_true_eq] at hfull
      rw [Nat.sub_eq_zero_of_le hfull, Nat.min_zero]
      rfl
    · next hroom =>
      rw [dstFull, decide_eq_true_eq] at hroom
      rw [hpos]
      change lzCopy e n (pos + 1) (lzEmit e (l.seek l.io.pos) (l.lz.back d)) = _
      rw [ih (l := lzEmit e (l.seek l.io.pos) (l.lz.back d)) (hz.winPut _) hd ?_, lzEmit_after ht]
      · change l.after e (l.lz.back d :: matchBytes (winPut l.lz (l.lz.back d)) d (min n (e.dstLen - (l.io.out + 1)))) _ = _
        rw [← matchBytes_succ hz h1 hd,
          show min n (e.dstLen - (l.io.out + 1)) + 1 = min (n + 1) (e.dstLen - l.io.out) by omega]
        rfl
      · change (pos + 1) % l.lz.w.toNat = ((winPut l.lz (l.lz.back d)).r.toNat + l.lz.w.toNat - d) % l.lz.w.toNat
        rw [winPut_r hz, place_succ hd, ← Nat.mod_add_mod, hpos, Nat.mod_add_mod]

/-- A match of variant 2 must fit (R352). -/
theorem lzCopyStrict_eq {n pos d : Nat} {l : LzLoop} (hz : l.lz.Legal) (hw : l.lz.w.toNat = 4096) (h1 : 1 ≤ d) (hd : d ≤ 4096)
    (hpos : pos % 4096 = (l.lz.r.toNat + 4096 - d) % 4096) (hout : l.io.out ≤ e.dstLen) :
    lzCopyStrict e n pos l = if n ≤ e.dstLen - l.io.out then .ok (l.after e (matchBytes l.lz d n) l.io.pos)
      else raise .formatError (wordOf e.dstLen) := by
  induction n generalizing pos l with
  | zero => rw [if_pos (Nat.zero_le _)]; rfl
  | succ n ih =>
    rw [lzCopyStrict]
    split
    · next hfull =>
      rw [dstFull, decide_eq_true_eq] at hfull
      rw [if_neg (by omega), Nat.le_antisymm hout hfull]
    · next hroom =>
      rw [dstFull, decide_eq_true_eq] at hroom
      have hb : l.lz.win.get (pos % 4096) = l.lz.back d := by rw [hpos, Lz.back, hw]
      rw [hb]
      change lzCopyStrict e n (pos + 1) (lzEmit e (l.seek l.io.pos) (l.lz.back d)) = _
      rw [ih (l := lzEmit e (l.seek l.io.pos) (l.lz.back d)) (hz.winPut _) hw ?_ (by change l.io.out + 1 ≤ _; omega),
        lzEmit_after ht]
      · change (if n ≤ e.dstLen - (l.io.out + 1) then
          Except.ok (l.after e (l.lz.back d :: matchBytes (winPut l.lz (l.lz.back d)) d n) l.io.pos) else _) = _
        rw [← matchBytes_succ hz h1 (by omega)]
        by_cases hfits : n + 1 ≤ e.dstLen - l.io.out
        · rw [if_pos hfits, if_pos (by omega)]
        · rw [if_neg hfits, if_neg (by omega)]
      · change (pos + 1) % 4096 = ((winPut l.lz (l.lz.back d)).r.toNat + 4096 - d) % 4096
        rw [winPut_r hz, hw, place_succ hd, ← Nat.mod_add_mod, hpos, Nat.mod_add_mod]

end

end Sys2Proof.Machine
end

section
/-! PROOFS. LZ_DECOMPRESS on a known stream (44_lzss.md R347 to R352): the turns of each layout, and the command. -/

namespace Sys2Proof.Machine

/-! ## A source that holds known bytes -/

/-- From byte offset `q` on the source holds these bytes, as a command with spans `e` reads them from `buf`. -/
def FeedsBytes (e : Env) (buf : Store 8) (q : Nat) (bytes : List Byte) : Prop :=
  q + bytes.length ≤ e.srcLen ∧ ∀ i, (h : i < bytes.length) → buf.get (e.srcBase + (q + i)) = bytes[i]

theorem feedsBytes_of_holdsBytes {s : State} {q : Nat} {bytes : List Byte} (h : s.holdsBytes q bytes) :
    FeedsBytes s.env s.buf q bytes :=
  ⟨h.1, fun i hi => (congrArg s.buf.get (Nat.add_assoc ..).symm).trans (h.2 i hi)⟩

section

variable {e : Env} {buf : Store 8} {io : Io} {q : Nat} {b : Byte} {bytes : List Byte}

theorem FeedsBytes.tail (h : FeedsBytes e buf q (b :: bytes)) : FeedsBytes e buf (q + 1) bytes := by
  obtain ⟨hlen, hbytes⟩ := h
  rw [List.length_cons] at hlen
  refine ⟨by omega, fun i hi => ?_⟩
  rw [Nat.add_assoc, Nat.add_comm 1]
  exact hbytes (i + 1) (Nat.succ_lt_succ hi)

theorem FeedsBytes.lt (h : FeedsBytes e buf q (b :: bytes)) : q < e.srcLen := by
  have hlen := h.1
  rw [List.length_cons] at hlen
  omega

theorem srcByte_feeds (hp : alignUp io.pos = 8 * q) (h : FeedsBytes e io.buf q (b :: bytes)) :
    srcByte e io = .ok (b, { io with pos := 8 * (q + 1) }) := by
  have hb : io.buf.get (e.srcBase + q) = b := h.2 0 (Nat.succ_pos _)
  rw [srcByte_at hp h.lt, hb]

variable (hapart : SpansApart e) (hroom : io.out < e.dstLen)
include hapart hroom

theorem FeedsBytes.dstPut (h : FeedsBytes e io.buf q bytes) (v : Byte) : FeedsBytes e (dstPut e io v).buf q bytes :=
  ⟨h.1, fun i hi => (dstPut_get_source hapart hroom v (by have := h.1; omega)).trans (h.2 i hi)⟩

theorem Feeds.dstPut {p : Nat} {bits : List Nat} (h : Feeds e io.buf p bits) (v : Byte) :
    Feeds e (dstPut e io v).buf p bits :=
  h.putByte (hapart _ hroom) _ v

end

theorem alignUp_bytes (q : Nat) : alignUp (8 * q) = 8 * q := alignUp_of_mod (Nat.mul_mod_right ..)

theorem dstFull_of_le {e : Env} {io : Io} (h : e.dstLen ≤ io.out) : dstFull e io = true := decide_eq_true h

theorem not_dstFull {e : Env} {io : Io} (h : io.out < e.dstLen) : ¬ dstFull e io = true := by
  rw [dstFull_false.mpr h]
  exact Bool.false_ne_true

/-! ## Flags (R350, R352) -/

/-- The control word with `k` flags of the flag byte `f` left: as it is read it has 7 after the first, and each turn shifts it. -/
def flagWord (f : Byte) (k : Nat) : Nat := (f.toNat ||| 0xFF00) >>> (7 - k)

/-- The control word before a turn with `k` flags left; at the start it is 0. -/
def FlagsLeft (f : Byte) (k ctl : Nat) : Prop := k ≤ 7 ∧ (ctl = flagWord f k ∨ k = 0 ∧ ctl = 0)

theorem flagsLeft_start (f : Byte) : FlagsLeft f 0 0 := ⟨by decide, .inr ⟨rfl, rfl⟩⟩

theorem flagWord_shift (f : Byte) {k : Nat} (hk : k < 7) : flagWord f (k + 1) >>> 1 = flagWord f k := by
  rw [flagWord, ← Nat.shiftRight_add, show 7 - (k + 1) + 1 = 7 - k by omega, flagWord]

/-- While flags are left the bit that counts them is set. -/
theorem flagWord_left (f : Byte) (k : Nat) : flagWord f k &&& 0x100 ≠ 0 := by
  have hcount : ∀ j : Fin 8, Nat.testBit 0xFF00 (j.val + 8) = true := by decide
  have hbit : (flagWord f k).testBit 8 = true := by
    rw [flagWord, Nat.testBit_shiftRight, Nat.testBit_or, hcount ⟨7 - k, by omega⟩, Bool.or_true]
  rw [show 0x100 = 2 ^ 8 from rfl, Nat.and_two_pow, hbit]
  decide

/-- With flags all alike the lowest bit of the control word is one of them. -/
theorem flagWord_low {f : Byte} (hf : f = 0xFF ∨ f = 0) (k : Nat) : flagWord f k &&& 1 = f.toNat &&& 1 := by
  have hlow : ∀ j : Fin 8, (0xFF ||| 0xFF00) >>> j.val &&& 1 = 1 ∧ (0 ||| 0xFF00) >>> j.val &&& 1 = 0 := by decide
  obtain ⟨hones, hzeros⟩ := hlow ⟨7 - k, by omega⟩
  rcases hf with rfl | rfl
  · exact hones
  · exact hzeros

theorem FlagsLeft.used {f : Byte} {ctl : Nat} (h : FlagsLeft f 0 ctl) : ctl >>> 1 &&& 0x100 = 0 := by
  obtain ⟨-, rfl | ⟨-, rfl⟩⟩ := h
  · revert f
    decide
  · rfl

section

variable {e : Env} {f : Byte} {k ctl : Nat} {io io' : Io}

theorem lzFlags_refill (h : FlagsLeft f 0 ctl) {b : Byte} (hb : srcByte e io = .ok (b, io')) :
    lzFlags e ctl io = .ok (flagWord b 7, true, io') := by
  rw [lzFlags, if_pos h.used, hb]
  rfl

theorem lzFlags_shift (h : FlagsLeft f (k + 1) ctl) (io : Io) : lzFlags e ctl io = .ok (flagWord f k, false, io) := by
  obtain ⟨hk, rfl | ⟨hk0, -⟩⟩ := h
  · rw [lzFlags, flagWord_shift f hk, if_neg (flagWord_left f k)]
  · exact absurd hk0 (Nat.succ_ne_zero k)

end

/-- A stream of literals with the flag byte `f` before every eight; `k` of the current flags are left. -/
def flagged (f : Byte) (k : Nat) (bytes : List Byte) : List Byte :=
  match bytes with
  | [] => []
  | b :: rest =>
    match k with
    | 0 => f :: b :: flagged f 7 rest
    | k + 1 => b :: flagged f k rest

theorem length_le_flagged (f : Byte) (k : Nat) (bytes : List Byte) : bytes.length ≤ (flagged f k bytes).length := by
  induction bytes generalizing k with
  | nil => exact Nat.zero_le _
  | cons b rest ih =>
    cases k with
    | zero => exact (Nat.succ_le_succ (ih 7)).trans (Nat.le_succ _)
    | succ k => exact Nat.succ_le_succ (ih k)

theorem stdLiterals_eq_flagged (k : Nat) (bytes : List Byte) : stdLiterals k bytes = flagged 0xFF k bytes := by
  induction bytes generalizing k with
  | nil => cases k <;> rfl
  | cons b rest ih =>
    cases k with
    | zero => rw [stdLiterals, flagged, ih]
    | succ k => rw [stdLiterals, flagged, ih]

theorem tlg5Literals_eq_flagged (k : Nat) (bytes : List Byte) : tlg5Literals k bytes = flagged 0 k bytes := by
  induction bytes generalizing k with
  | nil => cases k <;> rfl
  | cons b rest ih =>
    cases k with
    | zero => rw [tlg5Literals, flagged, ih]
    | succ k => rw [tlg5Literals, flagged, ih]

/-- The flags of the next literal: their byte is read when none is left, and the literal follows. -/
theorem lzFlags_flagged {e : Env} {io : Io} {f b : Byte} {rest : List Byte} {q k ctl : Nat} (hp : alignUp io.pos = 8 * q)
    (hctl : FlagsLeft f k ctl) (h : FeedsBytes e io.buf q (flagged f k (b :: rest))) :
    ∃ j fresh p q', lzFlags e ctl io = .ok (flagWord f j, fresh, { io with pos := p }) ∧ FlagsLeft f j (flagWord f j)
      ∧ alignUp p = 8 * q' ∧ FeedsBytes e io.buf q' (b :: flagged f j rest)
      ∧ q' + 1 + (flagged f j rest).length = q + (flagged f k (b :: rest)).length := by
  have hk := hctl.1
  cases k with
  | zero =>
    refine ⟨7, true, 8 * (q + 1), q + 1, lzFlags_refill hctl (srcByte_feeds hp h), ⟨Nat.le_refl _, .inl rfl⟩,
      alignUp_bytes _, h.tail, ?_⟩
    simp only [flagged, List.length_cons]
    omega
  | succ k =>
    refine ⟨k, false, io.pos, q, lzFlags_shift hctl io, ⟨by omega, .inl rfl⟩, hp, h, ?_⟩
    simp only [flagged, List.length_cons]
    omega

/-! ## Variant 0 (R350) -/

theorem stdFrom_full {e : Env} {l : LzLoop} (h : e.dstLen ≤ l.io.out) (fuel ctl : Nat) : stdFrom e fuel ctl l = .ok l := by
  cases fuel with
  | zero => rfl
  | succ fuel => rw [stdFrom, if_pos (dstFull_of_le h)]

theorem stdFrom_literals {e : Env} (hapart : SpansApart e) (ht : e.taint = none) {bytes : List Byte} {l : LzLoop}
    {q k ctl qEnd : Nat} (hroom : l.io.out + bytes.length ≤ e.dstLen) (hp : alignUp l.io.pos = 8 * q)
    (hnil : bytes = [] → l.io.pos = 8 * qEnd) (hctl : FlagsLeft 0xFF k ctl)
    (h : FeedsBytes e l.io.buf q (flagged 0xFF k bytes)) (hend : q + (flagged 0xFF k bytes).length = qEnd) :
    stdFrom e bytes.length ctl l = .ok (l.after e bytes (8 * qEnd)) := by
  induction bytes generalizing l q k ctl with
  | nil => rw [← hnil rfl]; rfl
  | cons b rest ih =>
    rw [List.length_cons] at hroom
    obtain ⟨j, fresh, p, q', hflags, hctl', hp', h', hlen⟩ := lzFlags_flagged hp hctl h
    have hbyte := srcByte_feeds (io := { l.io with pos := p }) hp' h'
    have hroom' : l.io.out < e.dstLen := by omega
    rw [List.length_cons, stdFrom, if_neg (not_dstFull hroom'), hflags]
    dsimp only
    rw [stdStep_literal (l := { l with io := { l.io with pos := p } }) (flagWord_low (.inl rfl) j) hbyte,
      ← lzEmit_after ht l b rest (8 * (q' + 1))]
    exact ih (l := lzEmit e (l.seek (8 * (q' + 1))) b) (q := q' + 1) (by change l.io.out + 1 + _ ≤ _; omega)
      (alignUp_bytes (q' + 1)) (fun hrest => by
        subst hrest
        change 8 * (q' + 1) = _
        rw [← hend, ← hlen]
        rfl)
      hctl' (h'.tail.dstPut (io := { l.io with pos := 8 * (q' + 1) }) hapart hroom' b) (hlen.trans hend)

/-- The 12-bit window position of a match, from its low byte and four high bits (R350, R352). -/
theorem windowPos_eq (lo : Byte) (n : Nat) : lo.toNat ||| n <<< 8 = lo.toNat + n * 256 := by
  rw [Nat.or_comm, Nat.shiftLeft_eq, Nat.mul_comm n, ← Nat.two_pow_add_eq_or_of_lt lo.isLt]
  omega

theorem high_nibble (b : Byte) : (b.toNat &&& 0xF0) <<< 4 = (b.toNat / 16) <<< 8 := by
  revert b
  decide

/-- A flag byte's lowest flag, a zero. -/
theorem flags_and_one_ne {flags : Byte} (h : flags.getLsbD 0 = false) : ¬ flagWord flags 7 &&& 1 = 1 := by
  have hbit : (flagWord flags 7).testBit 0 = false := by
    rw [flagWord, Nat.testBit_shiftRight, Nat.testBit_or, show flags.toNat.testBit (7 - 7 + 0) = false from h]
    rfl
  rw [Nat.and_one_is_mod]
  simpa using hbit

/-- A match of variant 0 at the start of the stream, with room for at most its bytes. -/
theorem stdFrom_match {e : Env} (ht : e.taint = none) {l : LzLoop} {fuel q d : Nat} {flags lo hi : Byte} (hz : l.lz.Legal)
    (hflag : flags.getLsbD 0 = false) (hp : alignUp l.io.pos = 8 * q) (h : FeedsBytes e l.io.buf q [flags, lo, hi])
    (h1 : 1 ≤ d) (hd : d ≤ l.lz.w.toNat)
    (hpos : (lo.toNat + hi.toNat / 16 * 256) % l.lz.w.toNat = (l.lz.r.toNat + l.lz.w.toNat - d) % l.lz.w.toNat)
    (hroom : l.io.out < e.dstLen) (hlen : e.dstLen - l.io.out ≤ hi.toNat % 16 + 3) :
    stdFrom e (fuel + 1) 0 l = .ok (l.after e (matchBytes l.lz d (e.dstLen - l.io.out)) (8 * (q + 3))) := by
  have hread := srcByte_feeds hp h
  have hlo := srcByte_feeds (io := { l.io with pos := 8 * (q + 1) }) (alignUp_bytes _) h.tail
  have hhi := srcByte_feeds (io := { l.io with pos := 8 * (q + 2) }) (alignUp_bytes _) h.tail.tail
  have hcopy := lzCopy_eq ht (n := hi.toNat % 16 + 3) (l := l.seek (8 * (q + 3))) hz h1 hd hpos
  rw [show min (hi.toNat % 16 + 3) (e.dstLen - (l.seek (8 * (q + 3))).io.out) = e.dstLen - l.io.out from Nat.min_eq_right hlen]
    at hcopy
  rw [stdFrom, if_neg (not_dstFull hroom), lzFlags_refill (flagsLeft_start 0) hread]
  dsimp only
  rw [stdStep, if_neg (flags_and_one_ne hflag)]
  dsimp only
  rw [hlo, Run.ok_bind]
  dsimp only
  rw [hhi, Run.ok_bind]
  dsimp only
  rw [high_nibble, windowPos_eq, show hi.toNat &&& 0x0F = hi.toNat % 16 from Nat.and_two_pow_sub_one_eq_mod _ 4]
  change stdFrom e fuel _ (lzCopy e _ _ (l.seek (8 * (q + 3)))) = _
  rw [hcopy]
  refine stdFrom_full ?_ _ _
  change e.dstLen ≤ l.io.out + (matchBytes l.lz d _).length
  rw [matchBytes_length]
  omega

/-! ## Variant 1 (R351) -/

theorem onsFrom_full {e : Env} {l : LzLoop} (h : e.dstLen ≤ l.io.out) (fuel : Nat) : onsFrom e fuel l = .ok l := by
  cases fuel with
  | zero => rfl
  | succ fuel => rw [onsFrom, if_pos (dstFull_of_le h)]

/-- Literals at the start of a stream: the loop goes on behind them. -/
theorem onsFrom_literals {e : Env} (hapart : SpansApart e) (ht : e.taint = none) {bytes : List Byte} {more : List Nat}
    {l : LzLoop} (hroom : l.io.out + bytes.length ≤ e.dstLen)
    (h : Feeds e l.io.buf l.io.pos (onsLiterals e.lsb bytes ++ more)) :
    (∀ fuel, onsFrom e (fuel + bytes.length) l = onsFrom e fuel (l.after e bytes (l.io.pos + 9 * bytes.length)))
    ∧ Feeds e (l.after e bytes (l.io.pos + 9 * bytes.length)).io.buf (l.io.pos + 9 * bytes.length) more := by
  induction bytes generalizing l with
  | nil => exact ⟨fun _ => rfl, h⟩
  | cons b rest ih =>
    rw [List.length_cons] at hroom
    rw [onsLiterals, List.flatMap_cons, List.cons_append, List.cons_append, List.append_assoc] at h
    have hroom' : l.io.out < e.dstLen := by omega
    have hstep := onsStep_literal (srcBit_feeds h) (srcBits_feeds (io := { l.io with pos := l.io.pos + 1 }) h.tail.left)
    have hbyte : BitVec.ofNat 8 (b.toNat % 2 ^ 8) = b := by rw [Nat.mod_eq_of_lt b.isLt, BitVec.ofNat_toNat, BitVec.setWidth_eq]
    have hmore := h.tail.right
    rw [hbyte] at hstep
    rw [fieldBits_length] at hmore
    obtain ⟨hloop, hfeeds⟩ := ih (l := lzEmit e (l.seek (l.io.pos + 1 + 8)) b) (by change l.io.out + 1 + _ ≤ _; omega)
      (hmore.dstPut (io := { l.io with pos := l.io.pos + 1 + 8 }) hapart hroom' b)
    rw [show (lzEmit e (l.seek (l.io.pos + 1 + 8)) b).io.pos + 9 * rest.length = l.io.pos + 9 * (rest.length + 1) from
      (show l.io.pos + 1 + 8 + 9 * rest.length = _ by omega), lzEmit_after ht] at hloop hfeeds
    refine ⟨fun fuel => ?_, hfeeds⟩
    rw [List.length_cons, ← Nat.add_assoc, onsFrom, if_neg (not_dstFull hroom'), hstep]
    exact hloop fuel

/-- A match of variant 1, with room for at most its bytes. -/
theorem onsFrom_match {e : Env} (ht : e.taint = none) {l : LzLoop} {fuel i j d : Nat} (hz : l.lz.Legal)
    (hw : l.lz.w.toNat = 256) (hi : i < 256) (hj : j < 16)
    (h : Feeds e l.io.buf l.io.pos (0 :: (fieldBits e.lsb 8 i ++ fieldBits e.lsb 4 j))) (h1 : 1 ≤ d) (hd : d ≤ 256)
    (hpos : i = (l.lz.r.toNat + 256 - d) % 256) (hroom : l.io.out < e.dstLen) (hlen : e.dstLen - l.io.out ≤ j + 2) :
    onsFrom e (fuel + 1) l = .ok (l.after e (matchBytes l.lz d (e.dstLen - l.io.out)) (l.io.pos + 13)) := by
  have hindex := srcBits_feeds (io := { l.io with pos := l.io.pos + 1 }) h.tail.left
  have hcount := h.tail.right
  rw [fieldBits_length] at hcount
  have hcount := srcBits_feeds (io := { l.io with pos := l.io.pos + 1 + 8 }) hcount
  rw [Nat.mod_eq_of_lt (show i < 2 ^ 8 from hi)] at hindex
  rw [Nat.mod_eq_of_lt (show j < 2 ^ 4 from hj)] at hcount
  have hcopy := lzCopy_eq ht (n := j + 2) (pos := i) (l := l.seek (l.io.pos + 1 + 8 + 4)) hz h1 (hw ▸ hd) (by
    change i % l.lz.w.toNat = (l.lz.r.toNat + l.lz.w.toNat - d) % l.lz.w.toNat
    rw [hw, Nat.mod_eq_of_lt hi, hpos])
  rw [show min (j + 2) (e.dstLen - (l.seek (l.io.pos + 1 + 8 + 4)).io.out) = e.dstLen - l.io.out from Nat.min_eq_right hlen]
    at hcopy
  rw [onsFrom, if_neg (not_dstFull hroom), onsStep, srcBit_feeds h, Run.ok_bind]
  dsimp only
  rw [if_neg Nat.zero_ne_one, hindex, Run.ok_bind]
  dsimp only
  rw [hcount, Run.ok_bind]
  change onsFrom e fuel (lzCopy e (j + 2) i (l.seek (l.io.pos + 1 + 8 + 4))) = _
  rw [hcopy]
  refine onsFrom_full ?_ _
  change e.dstLen ≤ l.io.out + (matchBytes l.lz d _).length
  rw [matchBytes_length]
  omega

/-! ## Variant 2 (R352) -/

/-- At the end of the source the loop ends. -/
theorem tlg5From_end {e : Env} {l : LzLoop} (h : l.io.pos = 8 * e.srcLen) (fuel ctl : Nat) :
    tlg5From e (fuel + 1) ctl l = .ok l := by rw [tlg5From, if_pos (Nat.le_of_eq h.symm)]

/-- A literal of variant 2. -/
theorem tlg5Step_literal {e : Env} {l : LzLoop} {ctl : Nat} {b : Byte} {io : Io} (hctl : ¬ ctl &&& 1 = 1)
    (hroom : l.io.out < e.dstLen) (hb : srcByte e l.io = .ok (b, io)) :
    tlg5Step e ctl l = .ok (lzEmit e { l with io := io } b) := by
  rw [tlg5Step, if_neg hctl, if_neg (not_dstFull hroom), hb]
  rfl

/-- A stream of literals up to the end of the source. -/
theorem tlg5From_literals {e : Env} (hapart : SpansApart e) (ht : e.taint = none) {bytes : List Byte} {l : LzLoop}
    {fuel q k ctl : Nat} (hfuel : bytes.length < fuel) (hroom : l.io.out + bytes.length ≤ e.dstLen) (hp : l.io.pos = 8 * q)
    (hctl : FlagsLeft 0 k ctl) (h : FeedsBytes e l.io.buf q (flagged 0 k bytes))
    (hend : q + (flagged 0 k bytes).length = e.srcLen) :
    tlg5From e fuel ctl l = .ok (l.after e bytes (8 * e.srcLen)) := by
  obtain ⟨fuel, rfl⟩ : ∃ n, fuel = n + 1 := ⟨fuel - 1, by omega⟩
  induction bytes generalizing l fuel q k ctl with
  | nil =>
    have hpos : l.io.pos = 8 * e.srcLen := by rw [hp, ← hend]; rfl
    rw [tlg5From_end hpos, ← hpos]
    rfl
  | cons b rest ih =>
    rw [List.length_cons] at hroom hfuel
    have halign : alignUp l.io.pos = 8 * q := by rw [hp, alignUp_bytes]
    obtain ⟨j, fresh, p, q', hflags, hctl', hp', h', hlen⟩ := lzFlags_flagged halign hctl h
    have hbyte := srcByte_feeds (io := { l.io with pos := p }) hp' h'
    have hroom' : l.io.out < e.dstLen := by omega
    have hq' := h'.lt
    have hple := alignUp_ge p
    have hmore : l.io.pos < 8 * e.srcLen := by
      have hpos : 0 < (flagged 0 k (b :: rest)).length := by cases k <;> simp [flagged]
      omega
    rw [tlg5From, if_neg (Nat.not_le_of_lt hmore), hflags]
    dsimp only
    rw [decide_eq_false (show ¬ 8 * e.srcLen ≤ p by omega), Bool.and_false, if_neg Bool.false_ne_true,
      tlg5Step_literal (l := { l with io := { l.io with pos := p } }) (by rw [flagWord_low (.inr rfl)]; decide) hroom' hbyte,
      ← lzEmit_after ht l b rest (8 * (q' + 1))]
    obtain ⟨fuel, rfl⟩ : ∃ n, fuel = n + 1 := ⟨fuel - 1, by omega⟩
    exact ih (l := lzEmit e (l.seek (8 * (q' + 1))) b) (q := q' + 1) (by change l.io.out + 1 + _ ≤ _; omega) rfl hctl'
      (h'.tail.dstPut (io := { l.io with pos := 8 * (q' + 1) }) hapart hroom' b) (hlen.trans hend) fuel (by omega)

/-- The length of a match of variant 2: 3 to 17, or 18 and a third byte. -/
def tlg5Length (b1 x : Byte) : Nat := b1.toNat / 16 + 3 + if b1.toNat / 16 = 15 then x.toNat else 0

/-- The bytes of a match of variant 2. -/
def tlg5Match (b0 b1 x : Byte) : List Byte := b0 :: b1 :: if b1.toNat / 16 = 15 then [x] else []

/-- A match of variant 2 is copied from its position, with the source behind its bytes. -/
theorem tlg5Step_match {e : Env} {l : LzLoop} {ctl q : Nat} {b0 b1 x : Byte} (hctl : ctl &&& 1 = 1)
    (hp : alignUp l.io.pos = 8 * q) (h : FeedsBytes e l.io.buf q (tlg5Match b0 b1 x)) :
    tlg5Step e ctl l = lzCopyStrict e (tlg5Length b1 x) (b0.toNat + b1.toNat % 16 * 256)
      (l.seek (8 * (q + (tlg5Match b0 b1 x).length))) := by
  have h0 := srcByte_feeds hp h
  have h1 := srcByte_feeds (io := { l.io with pos := 8 * (q + 1) }) (alignUp_bytes _) h.tail
  have hpos : b0.toNat ||| ((b1.toNat &&& 0x0F) <<< 8) = b0.toNat + b1.toNat % 16 * 256 := by
    rw [windowPos_eq, show b1.toNat &&& 0x0F = b1.toNat % 16 from Nat.and_two_pow_sub_one_eq_mod _ 4]
  rw [tlg5Step, if_pos hctl, h0, Run.ok_bind]
  dsimp only
  rw [h1, Run.ok_bind]
  dsimp only
  rw [hpos, Nat.shiftRight_eq_div_pow, tlg5Length, tlg5Match]
  by_cases hlong : b1.toNat / 16 = 15
  · have htail := h.tail.tail
    rw [if_pos hlong] at htail
    have h2 := srcByte_feeds (io := { l.io with pos := 8 * (q + 2) }) (alignUp_bytes _) htail
    rw [if_pos (by omega), if_pos hlong, if_pos hlong, h2]
    rfl
  · rw [if_neg (by omega), if_neg hlong, if_neg hlong]
    rfl

/-- A match of variant 2 that is the whole source, behind its flag byte. -/
theorem tlg5From_match {e : Env} (ht : e.taint = none) {l : LzLoop} {fuel q d : Nat} {flags b0 b1 x : Byte} (hz : l.lz.Legal)
    (hw : l.lz.w.toNat = 4096) (hflag : flags.getLsbD 0 = true) (hp : l.io.pos = 8 * q)
    (h : FeedsBytes e l.io.buf q (flags :: tlg5Match b0 b1 x)) (hend : q + 1 + (tlg5Match b0 b1 x).length = e.srcLen)
    (h1 : 1 ≤ d) (hd : d ≤ 4096) (hpos : (b0.toNat + b1.toNat % 16 * 256) % 4096 = (l.lz.r.toNat + 4096 - d) % 4096)
    (hout : l.io.out ≤ e.dstLen) : tlg5From e (fuel + 2) 0 l =
      if tlg5Length b1 x ≤ e.dstLen - l.io.out then .ok (l.after e (matchBytes l.lz d (tlg5Length b1 x)) (8 * e.srcLen))
      else raise .formatError (wordOf e.dstLen) := by
  have halign : alignUp l.io.pos = 8 * q := by rw [hp, alignUp_bytes]
  have hmore : q + 1 < e.srcLen := h.tail.lt
  have hstep : tlg5Step e (flagWord flags 7) (l.seek (8 * (q + 1))) = if tlg5Length b1 x ≤ e.dstLen - l.io.out then
      .ok (l.after e (matchBytes l.lz d (tlg5Length b1 x)) (8 * e.srcLen)) else raise .formatError (wordOf e.dstLen) := by
    rw [tlg5Step_match (l := l.seek (8 * (q + 1))) (ctl := flagWord flags 7) (flags_and_one hflag) (alignUp_bytes _) h.tail, hend]
    exact lzCopyStrict_eq ht (l := l.seek (8 * e.srcLen)) hz hw h1 hd hpos hout
  rw [tlg5From, if_neg (by omega), lzFlags_refill (flagsLeft_start 0) (srcByte_feeds halign h)]
  dsimp only
  rw [Bool.true_and, if_neg (by rw [decide_eq_true_eq]; omega),
    show tlg5Step e (flagWord flags 7) ⟨l.lz, ⟨l.io.buf, _, l.io.out⟩⟩ = _ from hstep]
  by_cases hfits : tlg5Length b1 x ≤ e.dstLen - l.io.out
  · rw [if_pos hfits]
    exact tlg5From_end rfl _ _
  · rw [if_neg hfits]
    rfl

/-! ## The command (R347) -/

/-- A state in which LZ_DECOMPRESS passes its checks, has room, and its output is determined. -/
structure State.LzReady (s : State) (v : BitVec 4) : Prop where
  calm : s.calm
  src : s.srcInBounds = true
  dst : s.dstInBounds = true
  room : s.dst.pos ≠ s.dst.len
  variant : v.toNat ≤ 2
  valid : v.toNat ≠ 1 → s.lz.valid = true
  size : v.toNat = 2 → s.lz.w = 4096

/-- `t` is `s` after LZ_DECOMPRESS has written `bytes`, to a window that was `z`, and read up to bit `p`. -/
structure State.LzWrote (s t : State) (z : Lz) (bytes : List Byte) (p : Nat) : Prop where
  state : t = (({ s with
    lz := t.lz
    buf := t.buf
    dst := { s.dst with pos := s.dst.pos + BitVec.ofNat 32 bytes.length } }.atBit p).setResult
      (BitVec.ofNat 32 bytes.length)).finished
  lz : t.lz = bytes.foldl winPut z
  stored : ∀ i, (h : i < bytes.length) → t.buf.get (s.dst.base.toNat + s.dst.pos.toNat + i) = bytes[i]
  kept : ∀ a, a < s.dst.base.toNat + s.dst.pos.toNat ∨ s.dst.base.toNat + s.dst.pos.toNat + bytes.length ≤ a →
    t.buf.get a = s.buf.get a

/-- When the bytes fill the destination, its cursor ends at DST_LEN. -/
theorem State.LzWrote.full {s t : State} {z : Lz} {bytes : List Byte} {p : Nat} (h : s.LzWrote t z bytes p)
    (hd : s.dstInBounds = true) (hlen : bytes.length = s.dst.len.toNat - s.dst.pos.toNat) :
    t = (({ s with lz := t.lz, buf := t.buf, dst := { s.dst with pos := s.dst.len } }.atBit p).setResult
      (s.dst.len - s.dst.pos)).finished := by
  obtain ⟨-, hpos⟩ := dstInBounds_iff.mp hd
  have hcount : BitVec.ofNat 32 bytes.length = s.dst.len - s.dst.pos := by
    have hsub := BitVec.toNat_sub_of_le (BitVec.le_def.mpr hpos)
    rw [hlen, ← hsub, BitVec.ofNat_toNat, BitVec.setWidth_eq]
  have hend : s.dst.pos + (s.dst.len - s.dst.pos) = s.dst.len := by
    rw [BitVec.add_comm, BitVec.sub_add_cancel]
  have hstate := h.state
  rwa [hcount, hend] at hstate

namespace State.LzReady

variable {s : State} {v : BitVec 4} (h : s.LzReady v)
include h

theorem checks : s.checkLzDecompress v.toNat = .ok () := by
  rw [checkLzDecompress_spans h.variant h.valid h.size, checkSrc_ok h.src, checkDst_ok h.dst]
  rfl

theorem apart : SpansApart s.env := spansApart_of_calm h.calm

theorem untainted : s.env.taint = none := taint_of_calm h.calm

theorem has_room : s.dst.pos.toNat < s.dst.len.toNat :=
  Nat.lt_of_le_of_ne (dstInBounds_iff.mp h.dst).2 fun heq => h.room (BitVec.eq_of_toNat_eq heq)

/-- When its variant writes `bytes`, it completes with them. -/
theorem completes {z : Lz} {bytes : List Byte} {p : Nat}
    (hloop : lzVariant s v.toNat = .ok (LzLoop.after ⟨z, s.io⟩ s.env bytes p)) :
    ∃ t, exec (.lzDecompress v) s = .next t ∧ s.LzWrote t z bytes p := by
  have hbody : lzBody s.markOverlap v.toNat = .ok (({ s with lz := bytes.foldl winPut z }.withIo
      ⟨putStrided s.buf (s.dst.base.toNat + s.dst.pos.toNat) 1 bytes, p, s.dst.pos.toNat + bytes.length⟩).setResult
        (wordOf bytes.length)) := by
    rw [markOverlap_of_calm h.calm, lzBody, if_neg h.room, hloop, Run.ok_bind]
    dsimp only [LzLoop.after, State.io]
    rw [Nat.add_sub_cancel_left]
    rfl
  have hpos : wordOf (s.dst.pos.toNat + bytes.length) = s.dst.pos + BitVec.ofNat 32 bytes.length := by
    rw [wordOf, BitVec.ofNat_add, BitVec.ofNat_toNat, BitVec.setWidth_eq]
  refine ⟨_, runCommand_complete (show s.checkLzDecompress v.toNat = _ from h.checks) hbody, ?_, rfl, fun i hi => ?_,
    fun a ha => ?_⟩
  · rw [← hpos]
    rfl
  · have hget := putStrided_get s.buf (a := s.dst.base.toNat + s.dst.pos.toNat) Nat.one_pos bytes i hi
    rwa [Nat.mul_one] at hget
  · exact putStrided_get_out _ fun j hj => by omega

/-- It raises what its variant raises. -/
theorem raises_variant {r : Raise} (hloop : lzVariant s v.toNat = .error r) :
    raises (.lzDecompress v) s 6 1 r.err.code r.info := by
  refine raises_of_body (by decide) (by decide) rfl (show s.checkLzDecompress v.toNat = _ from h.checks) ?_
  rw [markOverlap_of_calm h.calm, lzBody, if_neg h.room, hloop]
  rfl

end State.LzReady

end Sys2Proof.Machine
end

section
/-! PROOFS. Literals and matches through LZ_DECOMPRESS, in all three layouts (44_lzss.md R341, R350 to R352, R356). -/

namespace Sys2Proof.Machine

/-! ## Literals -/

/-- Where the cursor is behind a layout's stream of literals (R350 to R352). -/
def State.behindLiterals (s : State) (v : BitVec 4) (bytes : List Byte) : Nat :=
  if v = 0 then 8 * (s.nextByte + (stdLiterals 0 bytes).length)
  else if v = 1 then s.src.pos.toNat + 9 * bytes.length
  else 8 * s.src.len.toNat

/-- The window a variant starts with (R347). -/
def State.lzStart (s : State) (v : BitVec 4) : Lz := if v = 1 then lzOns s.lz else s.lz

section

variable {s : State} {bytes : List Byte}

theorem lzDecompress_stdLiterals (h : s.LzReady 0) (hlen : bytes.length = s.dst.len.toNat - s.dst.pos.toNat)
    (hf : s.holdsBytes s.nextByte (stdLiterals 0 bytes)) : ∃ t, exec (.lzDecompress 0) s = .next t
    ∧ s.LzWrote t s.lz bytes (8 * (s.nextByte + (stdLiterals 0 bytes).length)) := by
  have hroom := h.has_room
  have hfits : s.dst.pos.toNat + bytes.length ≤ s.dst.len.toNat := by omega
  have hne : bytes ≠ [] := List.ne_nil_of_length_pos (by omega)
  have hfeeds := feedsBytes_of_holdsBytes hf
  rw [stdLiterals_eq_flagged] at hfeeds ⊢
  have hloop := stdFrom_literals (l := ⟨s.lz, s.io⟩) h.apart h.untainted hfits (alignUp_nextByte s)
    (fun hnil => absurd hnil hne) (flagsLeft_start 0xFF) hfeeds rfl
  rw [hlen] at hloop
  exact h.completes hloop

theorem lzDecompress_onsLiterals (h : s.LzReady 1) (hlen : bytes.length = s.dst.len.toNat - s.dst.pos.toNat)
    (hf : s.holdsBits s.src.pos.toNat (onsLiterals s.lsb bytes)) : ∃ t, exec (.lzDecompress 1) s = .next t
    ∧ s.LzWrote t (lzOns s.lz) bytes (s.src.pos.toNat + 9 * bytes.length) := by
  have hroom := h.has_room
  have hfeeds := feeds_of_holdsBits hf
  rw [← List.append_nil (onsLiterals _ _)] at hfeeds
  obtain ⟨hloop, -⟩ := onsFrom_literals (l := ⟨lzOns s.lz, s.io⟩) h.apart h.untainted
    (show s.dst.pos.toNat + bytes.length ≤ s.dst.len.toNat by omega) hfeeds
  have hall := hloop 0
  rw [Nat.zero_add, hlen] at hall
  exact h.completes (hlen ▸ hall)

theorem lzDecompress_tlg5Literals (h : s.LzReady 2) (hlen : bytes.length ≤ s.dst.len.toNat - s.dst.pos.toNat)
    (hf : s.holdsBytes s.nextByte (tlg5Literals 0 bytes))
    (hend : s.nextByte + (tlg5Literals 0 bytes).length = s.src.len.toNat) :
    ∃ t, exec (.lzDecompress 2) s = .next t ∧ s.LzWrote t s.lz bytes (8 * s.src.len.toNat) := by
  have hroom := h.has_room
  have hfeeds := feedsBytes_of_holdsBytes hf
  rw [tlg5Literals_eq_flagged] at hfeeds hend
  have hlong := length_le_flagged 0 0 bytes
  have hloop := tlg5From_literals (l := ⟨s.lz, { s.io with pos := alignUp s.src.pos.toNat }⟩) (fuel := s.src.len.toNat + 1)
    h.apart h.untainted (by omega) (show s.dst.pos.toNat + bytes.length ≤ s.dst.len.toNat by omega) (alignUp_nextByte s)
    (flagsLeft_start 0) hfeeds hend
  exact h.completes hloop

end

/-- Settles O39: each layout's loop takes its literals one by one (`stdFrom_literals`, `onsFrom_literals`, `tlg5From_literals`). -/
theorem lzLiteralsRoundTrip : Obligations.LzLiteralsRoundTrip := by
  intro s bytes v hcalm hs hd hroom hstream
  suffices hwrote : (s.lzStart v).Legal ∧ (s.lzStart v).valid = true
      ∧ ∃ t, exec (.lzDecompress v) s = .next t ∧ s.LzWrote t (s.lzStart v) bytes (s.behindLiterals v bytes) by
    obtain ⟨hlegal, hvalid, t, ht, hw⟩ := hwrote
    refine ⟨t, ht, hw.state, hw.stored, hw.kept, ?_, ?_⟩
    · rw [hw.lz, foldl_winPut_valid, hvalid]
    · rw [hw.lz, foldl_winPut_r hlegal]
      by_cases hv : v = 1
      · subst hv
        rfl
      · rw [State.lzStart, if_neg hv, if_neg hv]
  rcases hstream with ⟨rfl, hlen, hvalid, hw, hr, hf⟩ | ⟨rfl, hlen, hf⟩ | ⟨rfl, hlen, hvalid, hw, hf, hend⟩
  · exact ⟨⟨hw, hr⟩, hvalid,
      lzDecompress_stdLiterals ⟨hcalm, hs, hd, hroom, by decide, fun _ => hvalid, nofun⟩ hlen hf⟩
  · exact ⟨lzOns_legal s.lz, rfl,
      lzDecompress_onsLiterals ⟨hcalm, hs, hd, hroom, by decide, fun hv => absurd rfl hv, nofun⟩ hlen hf⟩
  · exact ⟨legal_of_w4096 hw, hvalid,
      lzDecompress_tlg5Literals ⟨hcalm, hs, hd, hroom, by decide, fun _ => hvalid, fun _ => hw⟩ hlen hf hend⟩

/-! ## Matches -/

section

variable {s : State}

theorem lzDecompress_stdMatch (h : s.LzReady 0) {flags lo hi : Byte} {d : Nat} (hz : s.lz.Legal)
    (hflag : flags.getLsbD 0 = false) (hf : s.holdsBytes s.nextByte [flags, lo, hi]) (h1 : 1 ≤ d) (hd : d ≤ s.lz.w.toNat)
    (hpos : (lo.toNat + hi.toNat / 16 * 256) % s.lz.w.toNat = (s.lz.r.toNat + s.lz.w.toNat - d) % s.lz.w.toNat)
    (hlen : s.dst.len.toNat - s.dst.pos.toNat ≤ hi.toNat % 16 + 3) : ∃ t, exec (.lzDecompress 0) s = .next t
    ∧ s.LzWrote t s.lz (matchBytes s.lz d (s.dst.len.toNat - s.dst.pos.toNat)) (8 * (s.nextByte + 3)) := by
  have hroom := h.has_room
  have hloop := stdFrom_match (l := ⟨s.lz, s.io⟩) (fuel := s.dst.len.toNat - s.dst.pos.toNat - 1) h.untainted hz hflag
    (alignUp_nextByte s) (feedsBytes_of_holdsBytes hf) h1 hd hpos hroom hlen
  rw [Nat.sub_add_cancel (by omega)] at hloop
  exact h.completes hloop

theorem lzDecompress_onsMatch (h : s.LzReady 1) {bytes : List Byte} {i j d : Nat} (hi : i < 256) (hj : j < 16) (h1 : 1 ≤ d)
    (hd : d ≤ 256) (hpos : i = (239 + bytes.length + 256 - d) % 256)
    (hf : s.holdsBits s.src.pos.toNat (onsLiterals s.lsb bytes ++ 0 :: (fieldBits s.lsb 8 i ++ fieldBits s.lsb 4 j)))
    (hmore : bytes.length < s.dst.len.toNat - s.dst.pos.toNat)
    (hlen : s.dst.len.toNat - s.dst.pos.toNat ≤ bytes.length + j + 2) : ∃ t, exec (.lzDecompress 1) s = .next t
    ∧ s.LzWrote t (lzOns s.lz) (bytes ++ matchBytes (bytes.foldl winPut (lzOns s.lz)) d
      (s.dst.len.toNat - s.dst.pos.toNat - bytes.length)) (s.src.pos.toNat + 9 * bytes.length + 13) := by
  have hlegal := lzOns_legal s.lz
  obtain ⟨hloop, hfeeds⟩ := onsFrom_literals (l := ⟨lzOns s.lz, s.io⟩) h.apart h.untainted
    (show s.dst.pos.toNat + bytes.length ≤ s.dst.len.toNat by omega) (feeds_of_holdsBits hf)
  have hw : (bytes.foldl winPut (lzOns s.lz)).w.toNat = 256 := by rw [foldl_winPut_w]; rfl
  have hplace : i = ((bytes.foldl winPut (lzOns s.lz)).r.toNat + 256 - d) % 256 := by
    rw [foldl_winPut_r hlegal, hpos]
    show _ = ((239 + bytes.length) % 256 + 256 - d) % 256
    omega
  have hmatch := onsFrom_match (l := LzLoop.after ⟨lzOns s.lz, s.io⟩ s.env bytes (s.src.pos.toNat + 9 * bytes.length))
    (fuel := s.dst.len.toNat - s.dst.pos.toNat - bytes.length - 1) h.untainted (hlegal.foldl_winPut bytes) hw hi hj hfeeds h1 hd
    hplace (show s.dst.pos.toNat + bytes.length < s.dst.len.toNat by omega)
    (show s.dst.len.toNat - (s.dst.pos.toNat + bytes.length) ≤ j + 2 by omega)
  rw [LzLoop.after_append] at hmatch
  have hall := (hloop _).trans hmatch
  rw [show s.dst.len.toNat - s.dst.pos.toNat - bytes.length - 1 + 1 + bytes.length = s.dst.len.toNat - s.dst.pos.toNat by omega]
    at hall
  rw [Nat.sub_sub]
  exact h.completes hall

variable {flags b0 b1 x : Byte} {d : Nat}

/-- What the loop does with a match of variant 2 that is the whole source. -/
theorem lzVariant_tlg5Match (h : s.LzReady 2) (hflag : flags.getLsbD 0 = true)
    (hf : s.holdsBytes s.nextByte (flags :: tlg5Match b0 b1 x))
    (hend : s.nextByte + 1 + (tlg5Match b0 b1 x).length = s.src.len.toNat) (h1 : 1 ≤ d) (hd : d ≤ 4096)
    (hpos : (b0.toNat + b1.toNat % 16 * 256) % 4096 = (s.lz.r.toNat + 4096 - d) % 4096) :
    lzVariant s 2 = if tlg5Length b1 x ≤ s.dst.len.toNat - s.dst.pos.toNat then
      .ok (LzLoop.after ⟨s.lz, s.io⟩ s.env (matchBytes s.lz d (tlg5Length b1 x)) (8 * s.src.len.toNat))
      else raise .formatError s.dst.len := by
  have hw := h.size rfl
  have hloop := tlg5From_match (l := ⟨s.lz, { s.io with pos := alignUp s.src.pos.toNat }⟩) (fuel := s.src.len.toNat - 1)
    h.untainted (legal_of_w4096 hw) (congrArg BitVec.toNat hw) hflag (alignUp_nextByte s) (feedsBytes_of_holdsBytes hf) hend h1 hd
    hpos (Nat.le_of_lt h.has_room)
  rw [show s.src.len.toNat - 1 + 2 = s.src.len.toNat + 1 by omega,
    show wordOf s.env.dstLen = s.dst.len from wordOf_toNat_word _] at hloop
  exact hloop

end

/-- The byte of a match as the window holds it. -/
theorem back_eq_get {z : Lz} {d m : Nat} (hm : m ≤ d) (hd : d ≤ z.w.toNat) :
    z.back (d - m) = z.win.get ((z.r.toNat + z.w.toNat - d + m) % z.w.toNat) := by
  rw [Lz.back, show z.r.toNat + z.w.toNat - (d - m) = z.r.toNat + z.w.toNat - d + m by omega]

/-- A window seeded with zeros holds nothing else. -/
theorem lzOns_back (z : Lz) (d : Nat) : (lzOns z).back d = 0 := by
  rw [Lz.back, lzOns, lzSeeded_win]
  exact if_pos (Nat.mod_lt _ (by decide : 0 < 256))

/-- A byte of a match written to a window. -/
theorem State.LzWrote.match_get {s t : State} {z : Lz} {d n p : Nat} (h : s.LzWrote t z (matchBytes z d n) p) (h1 : 1 ≤ d)
    (hd : d ≤ z.w.toNat) {k : Nat} (hk : k < n) : t.buf.get (s.dst.base.toNat + s.dst.pos.toNat + k)
      = z.win.get ((z.r.toNat + z.w.toNat - d + k % d) % z.w.toNat) := by
  rw [h.stored k (by rwa [matchBytes_length]), matchBytes_get, back_eq_get (Nat.le_of_lt (Nat.mod_lt k h1)) hd]

/-- A byte of a match of variant 1 behind literals: one of them, or a zero of the seed. -/
theorem onsMatch_get {s t : State} {z : Lz} {bytes : List Byte} {d n p k : Nat}
    (h : s.LzWrote t (lzOns z) (bytes ++ matchBytes (bytes.foldl winPut (lzOns z)) d n) p) (h1 : 1 ≤ d) (hd : d ≤ 256)
    (hk : k < n) : t.buf.get (s.dst.base.toNat + s.dst.pos.toNat + bytes.length + k)
      = if d ≤ bytes.length + k % d then bytes.getD (bytes.length + k % d - d) 0 else 0 := by
  have hlt := Nat.mod_lt k h1
  have hget := h.stored (bytes.length + k) (by rw [List.length_append, matchBytes_length]; omega)
  rw [List.getElem_append_right (Nat.le_add_right ..), matchBytes_get, Nat.add_sub_cancel_left,
    foldl_winPut_back (lzOns_legal z) bytes (by omega) (show d - k % d ≤ 256 by omega), lzOns_back] at hget
  rw [Nat.add_assoc _ bytes.length, hget]
  by_cases hback : d ≤ bytes.length + k % d
  · rw [if_pos hback, if_pos (by omega), show bytes.length - (d - k % d) = bytes.length + k % d - d by omega]
  · rw [if_neg hback, if_neg (by omega)]

/-- Settles O40: a copy from `d` bytes back writes the last `d` bytes again and again (`lzCopy_eq`, `lzCopyStrict_eq`,
`matchBytes`), since each byte it writes becomes the last of the window (`matchBytes_succ`). -/
theorem lzMatchRepeatsWindow : Obligations.LzMatchRepeatsWindow := by
  refine ⟨?std, ?ons, ?tlg5⟩
  case std =>
    intro s flags lo hi d hcalm hs hd hvalid hw hr hflag hf h1 hdw hpos hroom hlen
    obtain ⟨t, ht, hwrote⟩ := lzDecompress_stdMatch ⟨hcalm, hs, hd, hroom, by decide, fun _ => hvalid, nofun⟩ ⟨hw, hr⟩ hflag hf
      h1 hdw hpos hlen
    exact ⟨t, ht, hwrote.full hd (matchBytes_length ..), fun k hk => hwrote.match_get h1 hdw hk⟩
  case ons =>
    intro s bytes i j d hcalm hs hd hi hj h1 hd256 hpos hf hmore hlen
    have hroom : s.dst.pos ≠ s.dst.len := fun heq => by
      rw [heq] at hmore
      omega
    obtain ⟨t, ht, hwrote⟩ := lzDecompress_onsMatch ⟨hcalm, hs, hd, hroom, by decide, fun h => absurd rfl h, nofun⟩ hi hj h1
      hd256 hpos hf hmore hlen
    have hcount : (bytes ++ matchBytes (bytes.foldl winPut (lzOns s.lz)) d
        (s.dst.len.toNat - s.dst.pos.toNat - bytes.length)).length = s.dst.len.toNat - s.dst.pos.toNat := by
      rw [List.length_append, matchBytes_length]
      omega
    refine ⟨t, ht, hwrote.full hd hcount, ?_, ?_, ?_, ?_, fun k hk => ?_, fun k hk => onsMatch_get hwrote h1 hd256 (by omega)⟩
    · rw [hwrote.lz, foldl_winPut_valid]
      rfl
    · rw [hwrote.lz, foldl_winPut_w]
      rfl
    · rw [hwrote.lz, foldl_winPut_fill]
      rfl
    · rw [hwrote.lz, foldl_winPut_r (lzOns_legal s.lz), hcount]
      rfl
    · rw [hwrote.stored k (by omega), List.getElem_append_left hk]
  case tlg5 =>
    intro s flags b0 b1 x d n hcalm hs hd hvalid hw hflag h1 hd4096 hpos hn hroom hf hend
    have hready : s.LzReady 2 := ⟨hcalm, hs, hd, hroom, by decide, fun _ => hvalid, fun _ => hw⟩
    have hsize : s.lz.w.toNat = 4096 := congrArg BitVec.toNat hw
    obtain rfl : n = tlg5Length b1 x := hn
    have hlast : s.nextByte + 1 + (tlg5Match b0 b1 x).length = s.src.len.toNat := by
      rw [← hend, tlg5Match]
      split
      · rfl
      · rfl
    have hloop := lzVariant_tlg5Match hready hflag hf hlast h1 hd4096 hpos
    refine ⟨fun hfits => ?_, fun hover => ?_⟩
    · rw [if_pos hfits] at hloop
      obtain ⟨t, ht, hwrote⟩ := hready.completes hloop
      have hstate := hwrote.state
      rw [matchBytes_length] at hstate
      refine ⟨t, ht, hstate, ?_, ?_, ?_, fun k hk => ?_⟩
      · rw [hwrote.lz, foldl_winPut_valid, hvalid]
      · rw [hwrote.lz, foldl_winPut_w, hw]
      · rw [hwrote.lz, foldl_winPut_r (legal_of_w4096 hw), matchBytes_length, hsize]
      · rw [hwrote.match_get h1 (by omega) hk, hsize]
    · rw [if_neg (by omega)] at hloop
      exact hready.raises_variant (r := ⟨.formatError, s.dst.len⟩) hloop

end Sys2Proof.Machine
end

section
/-! PROOFS. Camellia (45_camellia.md R383 to R389): decryption walks the rounds and layers of encryption backwards, whatever the
round function is. -/

namespace Sys2Proof.Machine

/-! ## The s-box -/

/-- The table of R383 lists 256 different bytes. -/
theorem camSbox_nodup : (camSboxLow ++ camSboxHigh).Nodup := by decide +kernel

theorem camSbox_length : (camSboxLow ++ camSboxHigh).length = 256 := by decide +kernel

theorem camSbox_lt : ∀ v ∈ camSboxLow ++ camSboxHigh, v < 256 := by decide +kernel

/-- S1 is the entry of the table, a byte already. -/
theorem camS1_toNat (x : Byte) :
    (camS1 x).toNat = (camSboxLow ++ camSboxHigh)[x.toNat]'(camSbox_length.symm ▸ x.isLt) := by
  have hx : x.toNat < (camSboxLow ++ camSboxHigh).length := camSbox_length.symm ▸ x.isLt
  rw [camS1, List.getD_eq_getElem _ _ hx, BitVec.toNat_ofNat]
  exact Nat.mod_eq_of_lt (camSbox_lt _ (List.getElem_mem hx))

theorem camS1_injective {x y : Byte} (h : camS1 x = camS1 y) : x = y := by
  have htable := congrArg BitVec.toNat h
  rw [camS1_toNat, camS1_toNat] at htable
  exact BitVec.eq_of_toNat_eq (camSbox_nodup.getElem_inj_iff.mp htable)

/-! ## FL and FLINV -/

/-- FLINV reads the low half first, which FL wrote last (R388). -/
theorem camFLInv_camFL (x k : BitVec 64) : camFLInv (camFL x k) k = x := by
  simp only [camFLInv, camFL, BitVec.extractLsb'_append_eq_left, BitVec.extractLsb'_append_eq_right, xor_cancel_right]
  exact BitVec.extractLsb'_append_extractLsb' (w := 32) (len := 32)

theorem camFL_camFLInv (x k : BitVec 64) : camFL (camFLInv x k) k = x := by
  simp only [camFLInv, camFL, BitVec.extractLsb'_append_eq_left, BitVec.extractLsb'_append_eq_right, xor_cancel_right]
  exact BitVec.extractLsb'_append_extractLsb' (w := 32) (len := 32)

/-! ## Each stage undone on the exchanged halves -/

@[simp] theorem hi64_append (x y : BitVec 64) : hi64 (x ++ y) = x := BitVec.extractLsb'_append_eq_left

@[simp] theorem lo64_append (x y : BitVec 64) : lo64 (x ++ y) = y := BitVec.extractLsb'_append_eq_right

theorem hi64_append_lo64 (x : BitVec 128) : hi64 x ++ lo64 x = x :=
  BitVec.extractLsb'_append_extractLsb' (w := 64) (len := 64)

/-- The last stage writes the halves exchanged and whitened; the first stage of the other direction reads them so. -/
theorem camWhitening_undo (d : BitVec 64 × BitVec 64) (u v : BitVec 64) :
    (hi64 ((d.2 ^^^ u) ++ (d.1 ^^^ v)) ^^^ u, lo64 ((d.2 ^^^ u) ++ (d.1 ^^^ v)) ^^^ v) = d.swap := by
  simp only [hi64_append, lo64_append, xor_cancel_right, Prod.swap]

/-- Two Feistel rounds with the subkeys exchanged undo themselves, for any round function (R389). -/
theorem camRounds_undo (d : BitVec 64 × BitVec 64) (ka kb : BitVec 64) :
    camRounds (camRounds d ka kb).swap kb ka = d.swap := by
  simp only [camRounds, Prod.swap, xor_cancel_right]

theorem camLayer_undo (d : BitVec 64 × BitVec 64) (ka kb : BitVec 64) :
    camLayer (camLayer d ka kb).swap kb ka = d.swap := by
  simp only [camLayer, Prod.swap, camFL_camFLInv, camFLInv_camFL]

/-- The block read by the first stage is the one written by the last stage of the other direction. -/
theorem camWhitening_cancel (x : BitVec 128) (u v : BitVec 64) : (hi64 x ^^^ u ^^^ u) ++ (lo64 x ^^^ v ^^^ v) = x := by
  rw [xor_cancel_right, xor_cancel_right, hi64_append_lo64]

/-! ## The whole cipher -/

theorem camDec_camEnc (l a p : BitVec 128) (rho : Nat) : camDec l a (camEnc l a p rho) rho = p := by
  simp only [camDec, camEnc, camWhitening_undo, camRounds_undo, camLayer_undo, Prod.fst_swap, Prod.snd_swap, camWhitening_cancel]

theorem camEnc_camDec (l a c : BitVec 128) (rho : Nat) : camEnc l a (camDec l a c rho) rho = c := by
  simp only [camDec, camEnc, camWhitening_undo, camRounds_undo, camLayer_undo, Prod.fst_swap, Prod.snd_swap, camWhitening_cancel]

/-- Settles O42: the s-box is a list of 256 different bytes, and each stage of one direction is undone by the stage of the other
with the same subkeys. -/
theorem camDecInvertsEncryption : Obligations.CamDecInvertsEncryption :=
  ⟨fun x k => ⟨camFLInv_camFL x k, camFL_camFLInv x k⟩, fun l a p rho => ⟨camDec_camEnc l a p rho, camEnc_camDec l a p rho⟩,
    fun _ _ => camS1_injective⟩

end Sys2Proof.Machine
end

section
/-! PROOFS. CAM_DECBLK and CAM_DECRANGE (45_camellia.md R391 to R394): the big-endian block in BUF, the blocks of a range, and the
checks. -/

namespace Sys2Proof.Machine

/-! ## A block in BUF (R392) -/

/-- `c` is the big-endian block at address `a`. -/
def BlockAt (buf : Store 8) (a : Nat) (c : BitVec 128) : Prop :=
  ∀ i < 16, c.extractLsb' (8 * (15 - i)) 8 = buf.get (a + i)

theorem BlockAt.of_get {buf buf' : Store 8} {a : Nat} {c : BitVec 128} (h : BlockAt buf a c)
    (hget : ∀ i < 16, buf'.get (a + i) = buf.get (a + i)) : BlockAt buf' a c :=
  fun i hi => (h i hi).trans (hget i hi).symm

theorem leByte_toNat {w : Nat} (x : BitVec w) (i : Nat) : leByte x.toNat i = x.extractLsb' (8 * i) 8 := by
  refine BitVec.eq_of_toNat_eq ?_
  rw [leByte, BitVec.toNat_ofNat, BitVec.extractLsb'_toNat, Nat.shiftRight_eq_div_pow, Nat.pow_mul]

/-- Bytes that are those of `v` from the most significant on read as `v`. -/
theorem beNat_memRead {buf : Store 8} {a n v : Nat} (h : ∀ i < n, buf.get (a + i) = leByte v (n - 1 - i)) :
    beNat (memRead buf a n) = v % 256 ^ n := by
  have hbytes : (memRead buf a n).reverse = (List.range n).map (leByte v) := by
    refine List.ext_getElem (by simp [memRead]) fun i hi _ => ?_
    have hin : i < n := by simpa [memRead] using hi
    have hlast : n - 1 - (n - 1 - i) = i := by omega
    simp [memRead, h (n - 1 - i) (by omega), hlast]
  rw [beNat, hbytes, leNat_leBytes]

/-- A block reads as itself, so it is decrypted as R391 says. -/
theorem camBlock_eq {s : State} {buf : Store 8} {a : Nat} {c : BitVec 128} (h : BlockAt buf a c) (bo : BitVec 64) :
    s.camBlock buf a bo = camDec s.cam.kl s.cam.ka c (s.camRot bo) := by
  have hread : beNat (memRead buf a 16) = c.toNat := by
    rw [beNat_memRead fun i hi => (h i hi).symm.trans (leByte_toNat c (15 - i)).symm]
    exact Nat.mod_eq_of_lt c.isLt
  rw [State.camBlock, hread, BitVec.ofNat_toNat, BitVec.setWidth_eq]

/-! ## Decryption in place (R393, R394) -/

section

variable {s : State} {a : Nat} {bo : BitVec 64} {buf : Store 8} {c : BitVec 128}

theorem taint_of_untainted (h : s.tainted = false) : s.taint = none := by simp [State.taint, h]

theorem camDecryptAt_blockAt (ht : s.taint = none) (h : BlockAt buf a c) :
    BlockAt (s.camDecryptAt buf a bo) a (camDec s.cam.kl s.cam.ka c (s.camRot bo)) := by
  intro i hi
  rw [State.camDecryptAt, ht, memWriteBE_get, if_pos (by omega), Nat.add_sub_cancel_left, leByte_toNat, camBlock_eq h]

/-- Block `j` of a range is decrypted from its own bytes under its own offset: the turns before it leave its bytes alone, and so
do the turns behind it. -/
theorem camDecryptFrom_blockAt (ht : s.taint = none) {n j : Nat} (hj : j < n) (h : BlockAt buf (a + 16 * j) c) :
    BlockAt (s.camDecryptFrom n a bo buf) (a + 16 * j)
      (camDec s.cam.kl s.cam.ka c (s.camRot (bo + BitVec.ofNat 64 (16 * j)))) := by
  induction n generalizing a bo buf j with
  | zero => exact absurd hj (Nat.not_lt_zero j)
  | succ n ih =>
    rw [State.camDecryptFrom]
    cases j with
    | zero =>
      have hfirst := (camDecryptAt_blockAt (bo := bo) ht h).of_get fun i hi =>
        (camDecryptFrom_writtenIn s n (a + 16) (bo + 16) (s.camDecryptAt buf a bo)).get_out (by omega)
      simpa using hfirst
    | succ j =>
      have haddr : a + 16 * (j + 1) = a + 16 + 16 * j := by omega
      have hoffset : bo + BitVec.ofNat 64 (16 * (j + 1)) = bo + 16 + BitVec.ofNat 64 (16 * j) := by
        rw [Nat.mul_succ, Nat.add_comm, BitVec.ofNat_add, ← BitVec.add_assoc]
        rfl
      rw [haddr] at h ⊢
      rw [hoffset]
      exact ih (Nat.lt_of_succ_lt_succ hj) (h.of_get fun i hi => memWriteBE_get_out (by omega))

end

/-! ## The checks of the two commands -/

section

variable {s : State} {ready : Bool} {addr : Word} {n : Nat}

theorem readyThenDirect_ok (hr : ready = true) (hn : addr.toNat + n ≤ s.cfg.bufSize) :
    (do s.requireReady ready; s.checkDirect addr n : Run Unit) = .ok () :=
  Run.bind_ok.mpr ⟨(), requireReady_ok hr, require_ok.mpr (decide_eq_true hn)⟩

theorem readyThenDirect_unready (hr : ready = false) :
    (do s.requireReady ready; s.checkDirect addr n : Run Unit) = .error ⟨.sequenceError, s.unitstat⟩ := by
  rw [show s.requireReady ready = .error ⟨.sequenceError, s.unitstat⟩ from require_error.mpr ⟨hr, rfl⟩]
  rfl

theorem readyThenDirect_outside (hr : ready = true) (hn : s.cfg.bufSize < addr.toNat + n) :
    (do s.requireReady ready; s.checkDirect addr n : Run Unit) = .error ⟨.outOfBounds, addr⟩ := by
  rw [requireReady_ok hr]
  exact require_error.mpr ⟨decide_eq_false (Nat.not_le.mpr hn), rfl⟩

end

/-! ## The commands -/

theorem exec_camDecblk (s : State) :
    exec .camDecblk s = runCommand s Instr.camDecblk.cmdId (do s.requireReady s.cam.keyed; s.checkDirect (s.arg 4) 16)
      (.ok { s with buf := s.camDecryptAt s.buf (s.arg 4).toNat s.camOffset }) s := rfl

theorem exec_camDecrange (s : State) :
    exec .camDecrange s = runCommand s Instr.camDecrange.cmdId
      (do s.requireReady s.cam.keyed; s.checkDirect (s.arg 4) (16 * ((s.arg 7).toNat / 16)))
      (.ok ({ s with buf := s.camDecryptFrom ((s.arg 7).toNat / 16) (s.arg 4).toNat s.camOffset s.buf }.setResult
        (wordOf (16 * ((s.arg 7).toNat / 16))))) s := rfl

/-- Settles O43: each block is decrypted in place (`camDecryptAt_blockAt`, `camDecryptFrom_blockAt`), and the checks come first. -/
theorem camDecryptsBlocks : Obligations.CamDecryptsBlocks := by
  intro s
  rw [Nat.mul_comm ((s.arg 7).toNat / 16) 16]
  refine ⟨fun hk ht hn => ?block, fun hk ht hn => ?range, fun hk => ⟨?blockUnkeyed, ?rangeUnkeyed⟩, fun hk hn => ?blockOutside,
    fun hk hn => ?rangeOutside⟩
  case block =>
    have hexec := (exec_camDecblk s).trans (runCommand_complete (readyThenDirect_ok hk hn) rfl)
    exact ⟨_, hexec, rfl, fun c hc i hi => (camDecryptAt_blockAt (taint_of_untainted ht) hc i hi).symm⟩
  case range =>
    have hexec := (exec_camDecrange s).trans (runCommand_complete (readyThenDirect_ok hk hn) rfl)
    exact ⟨_, hexec, rfl,
      fun j hj c hc i hi => (camDecryptFrom_blockAt (taint_of_untainted ht) hj hc i hi).symm,
      fun a ha => (camDecrange_writtenIn hexec).get_out (by omega)⟩
  case blockUnkeyed => exact refused_of_check ⟨.sequenceError, s.unitstat⟩ (exec_camDecblk s) (readyThenDirect_unready hk)
  case rangeUnkeyed => exact refused_of_check ⟨.sequenceError, s.unitstat⟩ (exec_camDecrange s) (readyThenDirect_unready hk)
  case blockOutside => exact refused_of_check ⟨.outOfBounds, s.arg 4⟩ (exec_camDecblk s) (readyThenDirect_outside hk hn)
  case rangeOutside => exact refused_of_check ⟨.outOfBounds, s.arg 4⟩ (exec_camDecrange s) (readyThenDirect_outside hk hn)

end Sys2Proof.Machine
end

section
/-! PROOFS. NEKO_DECRYPT (46_nekopack.md R420, R421, R424, R425): the lanes of PADDW, the words of a range with their running key,
and the checks. -/

namespace Sys2Proof.Machine

/-! ## The lanes of PADDW (R421) -/

theorem lane_paddw (x y : BitVec 64) {l : Nat} (hl : l < 4) : lane (paddw x y) l = lane x l + lane y l := by
  match l, hl with
  | 0, _ => exact BitVec.extractLsb'_append_eq_right
  | 1, _ => exact (BitVec.extractLsb'_append_eq_of_le (by decide)).trans BitVec.extractLsb'_append_eq_right
  | 2, _ =>
    exact (BitVec.extractLsb'_append_eq_of_le (by decide)).trans
      ((BitVec.extractLsb'_append_eq_of_le (by decide)).trans BitVec.extractLsb'_append_eq_right)
  | 3, _ =>
    exact (BitVec.extractLsb'_append_eq_of_le (by decide)).trans
      ((BitVec.extractLsb'_append_eq_of_le (by decide)).trans BitVec.extractLsb'_append_eq_left)

theorem lane_toNat (x : BitVec 64) (l : Nat) : (lane x l).toNat = x.toNat / 2 ^ (16 * l) % 2 ^ 16 := by
  rw [lane, BitVec.extractLsb'_toNat, Nat.shiftRight_eq_div_pow]

/-- Settles O44: lane `l` of the sum is the 16-bit sum of the lanes `l` (`lane_paddw`). -/
theorem paddwIsLanewise : Obligations.PaddwIsLanewise := by
  intro x y l hl
  simp only [← lane_toNat]
  rw [lane_paddw x y hl, BitVec.toNat_add]

/-! ## A word in BUF (R425) -/

/-- Byte `i` of a word is the byte at its address plus `i`. -/
theorem nekoRead_byte (buf : Store 8) (a : Nat) {i : Nat} (hi : i < 8) :
    (nekoRead buf a).extractLsb' (8 * i) 8 = buf.get (a + i) := by
  refine BitVec.eq_of_getElem_eq fun k hk => ?_
  have hbyte : (8 * i + k) / 8 = i := by omega
  have hbit : (8 * i + k) % 8 = k := by omega
  rw [BitVec.getElem_extractLsb', nekoRead, BitVec.getLsbD_ofNat, testBit_leNat, hbyte, hbit,
    decide_eq_true (show 8 * i + k < 64 by omega), Bool.true_and,
    List.getD_eq_getElem _ _ (by simpa [memRead] using hi), BitVec.getLsbD_eq_getElem hk]
  simp [memRead]

theorem nekoRead_congr {buf buf' : Store 8} {a : Nat} (h : ∀ i < 8, buf'.get (a + i) = buf.get (a + i)) :
    nekoRead buf' a = nekoRead buf a := by
  have hbytes : memRead buf' a 8 = memRead buf a 8 := List.map_congr_left fun i hi => h i (List.mem_range.mp hi)
  rw [nekoRead, hbytes, nekoRead]

/-! ## The words of a range (R424) -/

theorem nekoDecryptFrom_succ (taint : Option Nat) (n a : Nat) (buf : Store 8) (key : BitVec 64) :
    nekoDecryptFrom taint (n + 1) a buf key = nekoDecryptFrom taint n (a + 8)
      (memWriteLE taint buf a 8 (nekoRead buf a ^^^ key).toNat) (paddw key (nekoRead buf a)) := rfl

/-- The words behind the first `n` are decrypted from the BUF and the key that those leave. -/
theorem nekoDecryptFrom_add (taint : Option Nat) (n m a : Nat) (buf : Store 8) (key : BitVec 64) :
    nekoDecryptFrom taint (n + m) a buf key = nekoDecryptFrom taint m (a + 8 * n)
      (nekoDecryptFrom taint n a buf key).1 (nekoDecryptFrom taint n a buf key).2 := by
  induction n generalizing a buf key with
  | zero => rw [Nat.zero_add]; rfl
  | succ n ih =>
    have haddr : a + 8 * (n + 1) = a + 8 + 8 * n := by omega
    rw [Nat.succ_add, nekoDecryptFrom_succ, nekoDecryptFrom_succ, ih, haddr]

/-- The turns before word `n` leave its ciphertext. -/
theorem nekoRead_nekoDecryptFrom (taint : Option Nat) (n a : Nat) (buf : Store 8) (key : BitVec 64) :
    nekoRead (nekoDecryptFrom taint n a buf key).1 (a + 8 * n) = nekoRead buf (a + 8 * n) :=
  nekoRead_congr fun _ _ => (nekoDecryptFrom_writtenIn taint n a buf key).get_out (by omega)

theorem nekoDecryptFrom_key (taint : Option Nat) (n a : Nat) (buf : Store 8) (key : BitVec 64) :
    (nekoDecryptFrom taint n a buf key).2 = nekoKeyAfter buf a key n := by
  induction n with
  | zero => rfl
  | succ n ih => rw [nekoDecryptFrom_add, nekoDecryptFrom_succ, nekoRead_nekoDecryptFrom, ih]; rfl

/-- The last turn of a range writes its word over the bytes the turns before it left. -/
theorem nekoDecryptFrom_buf_succ (taint : Option Nat) (n a : Nat) (buf : Store 8) (key : BitVec 64) :
    (nekoDecryptFrom taint (n + 1) a buf key).1 = memWriteLE taint (nekoDecryptFrom taint n a buf key).1 (a + 8 * n) 8
      (nekoRead buf (a + 8 * n) ^^^ nekoKeyAfter buf a key n).toNat := by
  rw [nekoDecryptFrom_add, nekoDecryptFrom_succ, nekoRead_nekoDecryptFrom, nekoDecryptFrom_key]; rfl

/-- Each byte of word `j` is xored with its byte of the key at word `j`: the turn of the word does it, and no later one touches
it. -/
theorem nekoDecryptFrom_get (a : Nat) (buf : Store 8) (key : BitVec 64) {n j i : Nat} (hj : j < n) (hi : i < 8) :
    (nekoDecryptFrom none n a buf key).1.get (a + 8 * j + i)
      = buf.get (a + 8 * j + i) ^^^ (nekoKeyAfter buf a key j).extractLsb' (8 * i) 8 := by
  induction n with
  | zero => exact absurd hj (Nat.not_lt_zero j)
  | succ n ih =>
    rw [nekoDecryptFrom_buf_succ]
    rcases Nat.lt_succ_iff_lt_or_eq.mp hj with hlt | rfl
    · rw [memWriteLE_get_out (by omega), ih hlt]
    · rw [memWriteLE_get, if_pos (by omega), Nat.add_sub_cancel_left, leByte_toNat, BitVec.extractLsb'_xor,
        nekoRead_byte buf _ hi]

/-! ## The command -/

theorem exec_nekoDecrypt (s : State) :
    exec .nekoDecrypt s = runCommand s Instr.nekoDecrypt.cmdId
      (do s.requireReady s.neko.keyed; s.checkDirect (s.arg 2) (8 * ((s.arg 3).toNat / 8)))
      (.ok (nekoBody s ((s.arg 3).toNat / 8))) s := rfl

/-- A keyed command over `nw` whole words inside BUF runs its body. -/
theorem exec_nekoDecrypt_ok {s : State} {nw : Nat} (hk : s.neko.keyed = true) (hnw : (s.arg 3).toNat / 8 = nw)
    (hn : (s.arg 2).toNat + 8 * nw ≤ s.cfg.bufSize) : exec .nekoDecrypt s = .next (nekoBody s nw).complete := by
  subst hnw
  exact (exec_nekoDecrypt s).trans (runCommand_complete (readyThenDirect_ok hk hn) rfl)

theorem exec_nekoDecrypt_unkeyed {s : State} (hk : s.neko.keyed = false) :
    exec .nekoDecrypt s = .next (s.aborted 8 2 10 s.unitstat) :=
  refused_of_check ⟨.sequenceError, s.unitstat⟩ (exec_nekoDecrypt s) (readyThenDirect_unready hk)

/-- What the body leaves of BUF and of the unit, by the key at the end of its range. -/
theorem nekoBody_eq (s : State) (nw : Nat) :
    nekoBody s nw = { s with
      buf := (nekoDecryptFrom s.taint nw (s.arg 2).toNat s.buf s.neko.key).1
      neko := ⟨s.neko.keyed, nekoKeyAfter s.buf (s.arg 2).toNat s.neko.key nw⟩ }.setResult (wordOf (8 * nw)) := by
  rw [← nekoDecryptFrom_key s.taint]; rfl

/-! ## Two commands over consecutive words (R424) -/

/-- The state with the operands of NEKO_DECRYPT for the `n` words at `addr`. -/
def State.nekoAt (s : State) (addr : Word) (n : Nat) : State :=
  { s with args := (s.args.set 2 addr).set 3 (BitVec.ofNat 32 (8 * n)) }

theorem State.nekoAt_arg (s : State) (addr : Word) (n : Nat) :
    (s.nekoAt addr n).arg 2 = addr ∧ (s.nekoAt addr n).arg 3 = BitVec.ofNat 32 (8 * n) := by
  simp [State.nekoAt, State.arg]

/-- A start address that is there already needs no setting. -/
theorem State.nekoAt_own (s : State) (n : Nat) :
    s.nekoAt (s.arg 2) n = { s with args := s.args.set 3 (BitVec.ofNat 32 (8 * n)) } := by
  have hown : s.args.set 2 (s.arg 2) = s.args := Vector.set_getElem_self _
  rw [State.nekoAt, hown]

/-- A keyed, untainted command over `n` words inside BUF. -/
theorem exec_nekoAt {s t : State} {addr : Word} {n : Nat} (hk : s.neko.keyed = true) (ht : s.tainted = false)
    (hlt : 8 * n < 2 ^ 32) (hn : addr.toNat + 8 * n ≤ s.cfg.bufSize) (h : exec .nekoDecrypt (s.nekoAt addr n) = .next t) :
    t.buf = (nekoDecryptFrom none n addr.toNat s.buf s.neko.key).1
    ∧ t.neko = ⟨true, (nekoDecryptFrom none n addr.toNat s.buf s.neko.key).2⟩
    ∧ t.tainted = false ∧ t.cfg = s.cfg := by
  obtain ⟨haddr, hlen⟩ := s.nekoAt_arg addr n
  have hwords : ((s.nekoAt addr n).arg 3).toNat / 8 = n := by
    rw [hlen, BitVec.toNat_ofNat]
    omega
  rw [exec_nekoDecrypt_ok (s := s.nekoAt addr n) hk hwords (by rwa [haddr])] at h
  cases h
  rw [nekoBody_eq, haddr, taint_of_untainted (s := s.nekoAt addr n) ht, nekoDecryptFrom_key]
  exact ⟨rfl, congrArg (Neko.mk · _) hk, rfl, rfl⟩

/-- A command without a key leaves BUF and the unit. -/
theorem exec_nekoDecrypt_unkeyed_frame {s t : State} (hk : s.neko.keyed = false) (h : exec .nekoDecrypt s = .next t) :
    t.buf = s.buf ∧ t.neko = s.neko := by
  rw [exec_nekoDecrypt_unkeyed hk] at h
  cases h
  exact ⟨rfl, rfl⟩

/-- Every address of BUF is a word. -/
theorem bufSize_lt (s : State) : s.cfg.bufSize < 2 ^ 32 := by
  have hsel := s.cfg.bufSel.isLt
  exact Nat.pow_lt_pow_right (by decide) (by omega)

/-- Two commands over consecutive words against one over them all; without a key, none of the three does anything. -/
theorem nekoAt_splits {s t u w : State} {n m : Nat} (ht : s.tainted = false) (hlt : 8 * (n + m) < 2 ^ 32)
    (hn : (s.arg 2).toNat + 8 * (n + m) ≤ s.cfg.bufSize)
    (h₁ : exec .nekoDecrypt (s.nekoAt (s.arg 2) n) = .next t)
    (h₂ : exec .nekoDecrypt (t.nekoAt (s.arg 2 + BitVec.ofNat 32 (8 * n)) m) = .next u)
    (h : exec .nekoDecrypt (s.nekoAt (s.arg 2) (n + m)) = .next w) : u.buf = w.buf ∧ u.neko = w.neko := by
  cases hk : s.neko.keyed with
  | false =>
    obtain ⟨htbuf, htneko⟩ := exec_nekoDecrypt_unkeyed_frame (s := s.nekoAt _ n) hk h₁
    obtain ⟨hubuf, huneko⟩ := exec_nekoDecrypt_unkeyed_frame (s := t.nekoAt _ m) ((congrArg Neko.keyed htneko).trans hk) h₂
    obtain ⟨hwbuf, hwneko⟩ := exec_nekoDecrypt_unkeyed_frame (s := s.nekoAt _ (n + m)) hk h
    exact ⟨(hubuf.trans htbuf).trans hwbuf.symm, (huneko.trans htneko).trans hwneko.symm⟩
  | true =>
    have haddr : (s.arg 2 + BitVec.ofNat 32 (8 * n)).toNat = (s.arg 2).toNat + 8 * n := by
      have := bufSize_lt s
      rw [BitVec.toNat_add, BitVec.toNat_ofNat]
      omega
    obtain ⟨htbuf, htneko, httaint, htcfg⟩ := exec_nekoAt hk ht (by omega) (by omega) h₁
    obtain ⟨hubuf, huneko, -, -⟩ := exec_nekoAt (by rw [htneko]) httaint (by omega) (by rw [haddr, htcfg]; omega) h₂
    obtain ⟨hwbuf, hwneko, -, -⟩ := exec_nekoAt hk ht hlt hn h
    rw [hubuf, huneko, hwbuf, hwneko, haddr, htbuf, htneko, nekoDecryptFrom_add]
    exact ⟨rfl, rfl⟩

/-- Settles O45: each word is xored with its key (`nekoDecryptFrom_get`), the checks come first, and a range is its first
words and then the others (`nekoDecryptFrom_add`). -/
theorem nekoDecryptsWords : Obligations.NekoDecryptsWords := by
  refine ⟨fun s => ?command, fun s t u w n m _ ht hlt hn h₁ h₂ h => ?split⟩
  case command =>
    rw [Nat.mul_comm ((s.arg 3).toNat / 8) 8]
    refine ⟨fun hk ht hn => ?words, exec_nekoDecrypt_unkeyed, fun hk hn => ?outside⟩
    case words =>
      have hexec := exec_nekoDecrypt_ok hk rfl hn
      refine ⟨_, hexec, ?state, fun j hj i hi => ?word, fun a ha => (nekoDecrypt_writtenIn hexec).get_out (by omega)⟩
      case state => rw [nekoBody_eq, hk]; rfl
      case word =>
        rw [nekoBody_eq, taint_of_untainted ht]
        exact nekoDecryptFrom_get _ _ _ hj hi
    case outside => exact refused_of_check ⟨.outOfBounds, s.arg 2⟩ (exec_nekoDecrypt s) (readyThenDirect_outside hk hn)
  case split =>
    rw [← s.nekoAt_own] at h₁ h
    exact nekoAt_splits ht hlt hn h₁ h₂ h

end Sys2Proof.Machine
end

section
/-! PROOFS. Binary32 patterns without their sign (47_transform.md R441): the magnitudes rise with the patterns, so the rounded
value of a number is one of the two patterns that enclose it. -/

namespace Sys2Proof.Machine

/-! ## Patterns without their sign -/

/-- The magnitude of pattern `b` in quanta of 2^-149; the pattern of the infinity counts as the value after the largest finite
one. -/
def patMag (b : Nat) : Nat := if b / 2 ^ 23 = 0 then b % 2 ^ 23 else (2 ^ 23 + b % 2 ^ 23) * 2 ^ (b / 2 ^ 23 - 1)

/-- The pattern of the infinity, the first that is not finite. -/
def infBits : Nat := 0x7F800000

theorem patMag_zero : patMag 0 = 0 := rfl

/-- The last finite magnitude and the one the infinity stands for. -/
theorem patMag_top : patMag (infBits - 1) = (2 ^ 24 - 1) * 2 ^ 253 ∧ patMag infBits = 2 ^ 24 * 2 ^ 253 := by decide +kernel

/-- The next pattern is one quantum of its exponent up, also where the fraction carries. -/
theorem patMag_succ (b : Nat) : patMag (b + 1) = patMag b + 2 ^ (b / 2 ^ 23 - 1) := by
  unfold patMag
  by_cases hcarry : b % 2 ^ 23 = 2 ^ 23 - 1
  · have hdiv : (b + 1) / 2 ^ 23 = b / 2 ^ 23 + 1 := by omega
    have hmod : (b + 1) % 2 ^ 23 = 0 := by omega
    rw [hdiv, hmod, hcarry, if_neg (Nat.succ_ne_zero _)]
    by_cases h0 : b / 2 ^ 23 = 0
    · rw [h0]; rfl
    · obtain ⟨e, he⟩ := Nat.exists_eq_add_one_of_ne_zero h0
      rw [he, if_neg (Nat.succ_ne_zero _)]
      simp only [Nat.add_sub_cancel]
      ring
  · have hdiv : (b + 1) / 2 ^ 23 = b / 2 ^ 23 := by omega
    have hmod : (b + 1) % 2 ^ 23 = b % 2 ^ 23 + 1 := by omega
    rw [hdiv, hmod]
    split
    · next h0 => rw [h0]; rfl
    · rw [← Nat.add_assoc, Nat.succ_mul]

theorem patMag_strictMono : StrictMono patMag :=
  strictMono_nat_of_lt_succ fun b => by
    rw [patMag_succ]
    exact Nat.lt_add_of_pos_right (Nat.two_pow_pos _)

/-- Quanta above the least are small beside the magnitude. -/
theorem patMag_quantum (b : Nat) : 2 ^ (b / 2 ^ 23 - 1) = 1 ∨ 2 ^ 23 * 2 ^ (b / 2 ^ 23 - 1) ≤ patMag b := by
  by_cases h0 : b / 2 ^ 23 = 0
  · exact .inl (by rw [h0]; rfl)
  · rw [patMag, if_neg h0]
    exact .inr (Nat.mul_le_mul_right _ (Nat.le_add_right _ _))

/-- The pattern of a significand `q` and its shift `k` (a significand is full unless its shift is 0). -/
theorem patMag_shifted {q k : Nat} (hq : q < 2 ^ 24) (hk : k ≠ 0 → 2 ^ 23 ≤ q) :
    patMag (q + k * 2 ^ 23) = q * 2 ^ k ∧ patMag (q + k * 2 ^ 23 + 1) = (q + 1) * 2 ^ k := by
  have hfirst : patMag (q + k * 2 ^ 23) = q * 2 ^ k ∧ (q + k * 2 ^ 23) / 2 ^ 23 - 1 = k := by
    unfold patMag
    by_cases hfull : 2 ^ 23 ≤ q
    · have hdiv : (q + k * 2 ^ 23) / 2 ^ 23 = k + 1 := by omega
      have hmod : 2 ^ 23 + (q + k * 2 ^ 23) % 2 ^ 23 = q := by omega
      rw [hdiv, hmod, if_neg (Nat.succ_ne_zero _), Nat.add_sub_cancel]
      exact ⟨rfl, rfl⟩
    · obtain rfl : k = 0 := by by_contra h; exact hfull (hk h)
      have hdiv : (q + 0 * 2 ^ 23) / 2 ^ 23 = 0 := by omega
      rw [hdiv, if_pos rfl]
      exact ⟨by omega, rfl⟩
  obtain ⟨hmag, hexp⟩ := hfirst
  refine ⟨hmag, ?_⟩
  rw [patMag_succ, hexp, hmag, Nat.succ_mul]

/-! ## The two patterns that enclose a number -/

/-- `b` and the next pattern enclose `m * 2^-(149 + u)`. -/
def Encloses (b m u : Nat) : Prop := patMag b * 2 ^ u ≤ m ∧ m < patMag (b + 1) * 2 ^ u

/-- The number is nearer to the upper of its two patterns, or halfway and the lower one is odd. -/
abbrev RoundsUp (b m u : Nat) : Prop :=
  patMag b * 2 ^ u + patMag (b + 1) * 2 ^ u < 2 * m ∨ patMag b * 2 ^ u + patMag (b + 1) * 2 ^ u = 2 * m ∧ b % 2 = 1

/-- How far from the lower pattern the rounded one is. -/
def roundStep (b m u : Nat) : Nat := if RoundsUp b m u then 1 else 0

theorem roundStep_cases (b m u : Nat) : (roundStep b m u = 0 ∧ ¬ RoundsUp b m u) ∨ (roundStep b m u = 1 ∧ RoundsUp b m u) := by
  unfold roundStep
  split
  · next h => exact .inr ⟨rfl, h⟩
  · next h => exact .inl ⟨rfl, h⟩

/-- The rounded pattern is one of the two that enclose the number, ties to even, but no more than the infinity. -/
theorem roundBits_encloses (m u : Nat) : ∃ b, Encloses b m u ∧ roundBits m u = min (b + roundStep b m u) infBits := by
  obtain ⟨r, hr⟩ : ∃ r, r = max (m.log2 - 23) u := ⟨_, rfl⟩
  obtain ⟨q, hq⟩ : ∃ q, q = m / 2 ^ r := ⟨_, rfl⟩
  have hsplit : q * 2 ^ r + m % 2 ^ r = m := hq ▸ Nat.div_add_mod' m (2 ^ r)
  have hrest : m % 2 ^ r < 2 ^ r := Nat.mod_lt _ (Nat.two_pow_pos r)
  have hsmall : q < 2 ^ 24 := by
    rw [hq, Nat.div_lt_iff_lt_mul (Nat.two_pow_pos r), ← Nat.pow_add]
    exact Nat.lt_log2_self.trans_le (Nat.pow_le_pow_right (by decide) (by omega))
  have hfull : r - u ≠ 0 → 2 ^ 23 ≤ q := fun h => by
    have hm : m ≠ 0 := by rintro rfl; simp at hr; omega
    rw [hq, Nat.le_div_iff_mul_le (Nat.two_pow_pos r), ← Nat.pow_add]
    exact (Nat.pow_le_pow_right (by decide) (by omega)).trans (Nat.log2_self_le hm)
  obtain ⟨hlo, hhi⟩ := patMag_shifted hsmall hfull
  have hscale : 2 ^ (r - u) * 2 ^ u = 2 ^ r := by rw [← Nat.pow_add]; congr 1; omega
  have hloU : patMag (q + (r - u) * 2 ^ 23) * 2 ^ u = q * 2 ^ r := by rw [hlo, Nat.mul_assoc, hscale]
  have hhiU : patMag (q + (r - u) * 2 ^ 23 + 1) * 2 ^ u = q * 2 ^ r + 2 ^ r := by rw [hhi, Nat.mul_assoc, hscale, Nat.succ_mul]
  have hodd : (q + (r - u) * 2 ^ 23) % 2 = q % 2 := by omega
  refine ⟨q + (r - u) * 2 ^ 23, ?encloses, ?rounded⟩
  case encloses =>
    rw [Encloses, hloU, hhiU]
    omega
  case rounded =>
    have hstep : roundStep (q + (r - u) * 2 ^ 23) m u = if (decide (2 ^ r < 2 * (m % 2 ^ r))
        || (decide (2 * (m % 2 ^ r) = 2 ^ r) && decide (q % 2 = 1))) = true then 1 else 0 := by
      simp only [roundStep, RoundsUp, hloU, hhiU, hodd, Bool.or_eq_true, Bool.and_eq_true,
        decide_eq_true_eq]
      exact if_congr (by omega) rfl rfl
    rw [hstep, roundBits, ← hr, ← hq, Nat.add_right_comm]
    rfl

/-- The rounded pattern is the infinity from halfway past the largest finite value on. -/
theorem infBits_le_iff {b m u : Nat} (h : Encloses b m u) :
    infBits ≤ b + roundStep b m u ↔ (2 ^ 25 - 1) * 2 ^ (252 + u) ≤ m := by
  obtain ⟨hlast, htop⟩ := patMag_top
  have hbound : (2 ^ 25 - 1) * 2 ^ (252 + u) * 2 = (patMag (infBits - 1) + patMag infBits) * 2 ^ u := by
    rw [hlast, htop, Nat.pow_add]
    ring
  have hgap : patMag (infBits - 1) * 2 ^ u < patMag infBits * 2 ^ u :=
    Nat.mul_lt_mul_of_pos_right (patMag_strictMono (by decide)) (Nat.two_pow_pos u)
  rw [Nat.add_mul] at hbound
  obtain ⟨hlo, hhi⟩ := h
  have hstep := roundStep_cases b m u
  unfold RoundsUp at hstep
  rcases Nat.lt_trichotomy (b + 1) infBits with hlt | heq | hgt
  · have := Nat.mul_le_mul_right (2 ^ u) (patMag_strictMono.monotone (show b + 1 ≤ infBits - 1 by omega))
    omega
  · obtain rfl : b = infBits - 1 := by omega
    have hodd : (infBits - 1) % 2 = 1 := by decide
    rw [heq] at hhi hstep
    omega
  · have := Nat.mul_le_mul_right (2 ^ u) (patMag_strictMono.monotone (show infBits ≤ b by omega))
    omega

end Sys2Proof.Machine
end

section
/-! PROOFS. The binary32 operations (47_transform.md R441): a rounded value is the nearest one, and the sums, differences,
products and conversions round their exact results. -/

namespace Sys2Proof.Machine

/-! ## A pattern and its sign -/

/-- `v` or `-v`. -/
def signed (neg : Bool) (v : Int) : Int := if neg then -v else v

@[simp] theorem signed_false (v : Int) : signed false v = v := rfl

@[simp] theorem signed_true (v : Int) : signed true v = -v := rfl

theorem signed_natAbs (neg : Bool) (v : Int) : (signed neg v).natAbs = v.natAbs := by
  cases neg <;> simp

theorem signed_zero (neg : Bool) : signed neg 0 = 0 := by
  cases neg <;> rfl

theorem signed_signed (neg : Bool) (v : Int) : signed neg (signed neg v) = v := by
  cases neg <;> simp

theorem signed_natAbs_self (v : Int) : signed (decide (v < 0)) v.natAbs = v := by
  by_cases h : v < 0
  · rw [decide_eq_true h, signed_true]
    omega
  · rw [decide_eq_false h, signed_false]
    omega

/-- A distance does not see a sign that both numbers have. -/
theorem signed_distance (neg : Bool) (w k m : Int) : (signed neg w * k - signed neg m).natAbs = (w * k - m).natAbs := by
  cases neg
  · rfl
  · rw [signed_true, signed_true, ← Int.natAbs_neg]
    congr 1
    ring

theorem signed_mul (p q : Bool) (v w : Int) : signed p v * signed q w = signed (p != q) (v * w) := by
  cases p <;> cases q <;> simp

/-- A pattern without its sign. -/
def bitsOf (x : F32) : Nat := x.toNat % 2 ^ 31

theorem fExp_eq (x : F32) : fExp x = bitsOf x / 2 ^ 23 := by
  rw [fExp, bitsOf, BitVec.extractLsb'_toNat, Nat.shiftRight_eq_div_pow]
  omega

theorem fFrac_eq (x : F32) : fFrac x = bitsOf x % 2 ^ 23 := by
  rw [fFrac, bitsOf, BitVec.extractLsb'_toNat, Nat.shiftRight_eq_div_pow]
  omega

theorem fMag_eq (x : F32) : fMag x = patMag (bitsOf x) := by
  rw [fMag, patMag, fExp_eq, fFrac_eq]

theorem fInt_eq (x : F32) : fInt x = signed x.msb (fMag x) := rfl

theorem fInt_natAbs (x : F32) : (fInt x).natAbs = fMag x := by
  rw [fInt_eq, signed_natAbs, Int.natAbs_natCast]

theorem fFinite_iff (x : F32) : fFinite x = true ↔ bitsOf x < infBits := by
  have : bitsOf x < 2 ^ 31 := Nat.mod_lt _ (by decide)
  rw [fFinite, fExp_eq, bne_iff_ne, infBits]
  omega

theorem fZero_iff (x : F32) : fZero x = true ↔ bitsOf x = 0 := by
  rw [fZero, fExp_eq, fFrac_eq, Bool.and_eq_true, beq_iff_eq, beq_iff_eq]
  omega

theorem fNaN_iff (x : F32) : fNaN x = true ↔ infBits < bitsOf x := by
  have : bitsOf x < 2 ^ 31 := Nat.mod_lt _ (by decide)
  rw [fNaN, fExp_eq, fFrac_eq, Bool.and_eq_true, beq_iff_eq, bne_iff_ne, infBits]
  omega

theorem fZero_iff_fMag (x : F32) : fZero x = true ↔ fMag x = 0 := by
  rw [fZero_iff, fMag_eq]
  exact (patMag_strictMono.injective.eq_iff' patMag_zero).symm

/-- The value with the given sign and pattern. -/
def fOfBits (neg : Bool) (b : Nat) : F32 := BitVec.ofNat 32 b ||| (if neg then 0x80000000 else 0)

theorem fRound_eq (neg : Bool) (m u : Nat) : fRound neg m u = fOfBits neg (roundBits m u) := rfl

theorem fInf_eq (neg : Bool) : fInf neg = fOfBits neg infBits := by
  cases neg <;> rfl

theorem fOfBits_toNat {b : Nat} (hb : b < 2 ^ 31) (neg : Bool) : (fOfBits neg b).toNat = (if neg then 2 ^ 31 else 0) + b := by
  rw [fOfBits, BitVec.toNat_or, BitVec.toNat_ofNat, Nat.mod_eq_of_lt (by omega)]
  cases neg
  · simp
  · exact (Nat.or_comm _ _).trans (Nat.two_pow_add_eq_or_of_lt hb 1).symm

theorem fOfBits_bitsOf {b : Nat} (hb : b < 2 ^ 31) (neg : Bool) : bitsOf (fOfBits neg b) = b := by
  rw [bitsOf, fOfBits_toNat hb]
  split <;> omega

theorem fOfBits_msb {b : Nat} (hb : b < 2 ^ 31) (neg : Bool) : (fOfBits neg b).msb = neg := by
  rw [BitVec.msb_eq_decide, fOfBits_toNat hb]
  cases neg
  · simpa using hb
  · simp

theorem fOfBits_bit0 {b : Nat} (hb : b < 2 ^ 31) (neg : Bool) : (fOfBits neg b).getLsbD 0 = decide (b % 2 = 1) := by
  have hmod : (fOfBits neg b).toNat % 2 = b % 2 := by
    rw [fOfBits_toNat hb]
    split <;> omega
  rw [BitVec.getLsbD, Nat.testBit_zero, hmod]

theorem fInt_fOfBits {b : Nat} (hb : b < 2 ^ 31) (neg : Bool) : fInt (fOfBits neg b) = signed neg (patMag b) := by
  rw [fInt_eq, fOfBits_msb hb, fMag_eq, fOfBits_bitsOf hb]

/-- A value is its sign and its pattern. -/
theorem fOfBits_self (x : F32) : fOfBits x.msb (bitsOf x) = x := by
  have hb : bitsOf x < 2 ^ 31 := Nat.mod_lt _ (by decide)
  refine BitVec.eq_of_toNat_eq ?_
  rw [fOfBits_toNat hb, BitVec.msb_eq_decide, bitsOf]
  have := x.isLt
  simp only [decide_eq_true_eq]
  split <;> omega

/-! ## Rounding -/

/-- No value lies between two consecutive patterns, from either side. -/
theorem fInt_outside (neg : Bool) (z : F32) (b : Nat) :
    signed neg (fInt z) ≤ patMag b ∨ (patMag (b + 1) : Int) ≤ signed neg (fInt z) := by
  have habs : signed neg (fInt z) ≤ patMag (bitsOf z) ∧ (signed neg (fInt z) = patMag (bitsOf z) ∨ signed neg (fInt z) ≤ 0) := by
    have := signed_natAbs neg (fInt z)
    rw [fInt_natAbs, fMag_eq] at this
    omega
  rcases Nat.lt_or_ge b (bitsOf z) with hlt | hge
  · have := patMag_strictMono.monotone (show b + 1 ≤ bitsOf z from hlt)
    omega
  · have := patMag_strictMono.monotone hge
    omega

/-- Of the two patterns that enclose a number, `roundStep` chooses the one that is nearest among all values, ties to even. -/
theorem roundStep_nearest {b m u : Nat} (h : Encloses b m u) {w : Int} (hw : w ≤ patMag b ∨ (patMag (b + 1) : Int) ≤ w) :
    ((patMag (b + roundStep b m u) : Int) * 2 ^ u - m).natAbs ≤ (w * 2 ^ u - m).natAbs
    ∧ (w ≠ patMag (b + roundStep b m u) →
      ((patMag (b + roundStep b m u) : Int) * 2 ^ u - m).natAbs = (w * 2 ^ u - m).natAbs → (b + roundStep b m u) % 2 = 0) := by
  obtain ⟨hlo, hhi⟩ := h
  have hpos : (0 : Int) < 2 ^ u := by positivity
  have hout : w * 2 ^ u ≤ (patMag b * 2 ^ u : Nat) ∨ ((patMag (b + 1) * 2 ^ u : Nat) : Int) ≤ w * 2 ^ u := by
    push_cast
    exact hw.imp (fun h => Int.mul_le_mul_of_nonneg_right h hpos.le) (fun h => Int.mul_le_mul_of_nonneg_right h hpos.le)
  have hne : ∀ c, w ≠ patMag c → w * 2 ^ u ≠ (patMag c * 2 ^ u : Nat) := fun c hc h => by
    push_cast at h
    exact hc (Int.eq_of_mul_eq_mul_right hpos.ne' h)
  have hcast : ∀ c, (patMag c : Int) * 2 ^ u = (patMag c * 2 ^ u : Nat) := fun c => by push_cast; rfl
  rcases roundStep_cases b m u with ⟨hstep, hcond⟩ | ⟨hstep, hcond⟩
  · rw [hstep, Nat.add_zero, hcast]
    exact ⟨by omega, fun h _ => by have := hne _ h; omega⟩
  · rw [hstep, hcast]
    exact ⟨by omega, fun h _ => by have := hne _ h; omega⟩

/-- R441: the rounded value is the nearest one, ties to even, and infinite past the largest finite value. -/
theorem fRound_isRounded {neg : Bool} {v : Int} (u : Nat) (hv : v = signed neg v.natAbs) :
    isRounded neg v u (fRound neg v.natAbs u) := by
  obtain ⟨m, hm⟩ : ∃ m, m = v.natAbs := ⟨_, rfl⟩
  obtain ⟨b, hb, hround⟩ := roundBits_encloses m u
  have hinf := infBits_le_iff hb
  have hlt : infBits < 2 ^ 31 := by decide
  rw [isRounded, fRound_eq, ← hm, hround]
  refine ⟨fOfBits_msb (by omega) neg, ?_⟩
  split
  · next h => rw [Nat.min_eq_right (hinf.mpr h), fInf_eq]
  · next h =>
    rw [Nat.min_eq_left (by omega)]
    refine ⟨by rw [fFinite_iff, fOfBits_bitsOf (by omega)]; omega, fun z _ => ?_⟩
    obtain ⟨hnear, htie⟩ := roundStep_nearest hb (fInt_outside neg z b)
    rw [hv, ← hm, fInt_fOfBits (by omega), fOfBits_bit0 (by omega), signed_distance, ← signed_signed neg (fInt z),
      signed_distance]
    refine ⟨hnear, fun hz heq => ?_⟩
    rw [htie (fun h => hz (by rw [h])) heq]
    rfl

/-! ## Signs, infinities and NaNs -/

theorem fNeg_bitsOf (x : F32) : bitsOf (fNeg x) = bitsOf x := by
  rw [bitsOf, fNeg, BitVec.toNat_xor, Nat.xor_mod_two_pow]
  exact Nat.xor_zero _

theorem fNeg_msb (x : F32) : (fNeg x).msb = !x.msb := by
  rw [fNeg, BitVec.msb_xor]
  exact Bool.xor_true _

theorem fNeg_fInt (x : F32) : fInt (fNeg x) = -fInt x := by
  rw [fInt_eq, fInt_eq, fNeg_msb, fMag_eq, fMag_eq, fNeg_bitsOf]
  cases x.msb <;> simp

theorem fNeg_finite {x : F32} : fFinite (fNeg x) = true ↔ fFinite x = true := by
  rw [fFinite_iff, fFinite_iff, fNeg_bitsOf]

theorem fNeg_fInf (n : Bool) : fNeg (fInf n) = fInf (!n) := by
  cases n <;> rfl

theorem fNeg_eq_fInf {x : F32} {n : Bool} : fNeg x = fInf n ↔ x = fInf (!n) := by
  constructor
  · intro h
    have hx : fNeg (fNeg x) = x := by rw [fNeg, fNeg, BitVec.xor_assoc, BitVec.xor_self, BitVec.xor_zero]
    rw [← hx, h, fNeg_fInf]
  · rintro rfl
    rw [fNeg_fInf, Bool.not_not]

theorem fNaN_of_finite {x : F32} (h : fFinite x = true) : fNaN x = false := by
  rw [fFinite_iff] at h
  rw [Bool.eq_false_iff, ne_eq, fNaN_iff]
  omega

theorem fNaNOf_isNaN (op : Nat) (a b : F32) : fNaN (fNaNOf op a b) = true := by
  unfold fNaNOf
  split
  · next h => exact h
  · rfl

@[simp] theorem fInf_finite (n : Bool) : fFinite (fInf n) = false := by cases n <;> rfl

@[simp] theorem fInf_nan (n : Bool) : fNaN (fInf n) = false := by cases n <;> rfl

@[simp] theorem fInf_zero (n : Bool) : fZero (fInf n) = false := by cases n <;> rfl

@[simp] theorem fInf_msb (n : Bool) : (fInf n).msb = n := by cases n <;> rfl

/-- A value is finite, infinite or NaN. -/
theorem eq_fInf {x : F32} (hn : fNaN x = false) (hf : fFinite x = false) : x = fInf x.msb := by
  rw [Bool.eq_false_iff, ne_eq, fNaN_iff] at hn
  rw [Bool.eq_false_iff, ne_eq, fFinite_iff] at hf
  rw [fInf_eq, ← show bitsOf x = infBits by omega, fOfBits_self]

/-! ## The operations -/

theorem fAddFinite_isRounded (a b : F32) :
    isRounded (if fInt a + fInt b = 0 then a.msb && b.msb else decide (fInt a + fInt b < 0)) (fInt a + fInt b) 0
      (fAddFinite a b) := by
  unfold fAddFinite
  dsimp only
  split
  · next h =>
    rw [h]
    exact fRound_isRounded 0 (signed_zero _).symm
  · exact fRound_isRounded 0 (signed_natAbs_self _).symm

theorem fAdd_of_finite {a b : F32} (ha : fFinite a = true) (hb : fFinite b = true) : fAdd a b = fAddFinite a b := by
  simp only [fAdd, fAddAs, fNaN_of_finite ha, fNaN_of_finite hb, ha, hb, Bool.or_self, Bool.false_eq_true, if_false, if_true]

theorem fSub_of_finite {a b : F32} (ha : fFinite a = true) (hb : fFinite b = true) : fSub a b = fAddFinite a (fNeg b) := by
  simp only [fSub, fAddAs, fNaN_of_finite ha, fNaN_of_finite hb, ha, fNeg_finite.mpr hb, Bool.or_self, Bool.false_eq_true,
    if_false, if_true]

theorem fMul_of_finite {a b : F32} (ha : fFinite a = true) (hb : fFinite b = true) :
    fMul a b = fRound (a.msb != b.msb) (fMag a * fMag b) 149 := by
  simp only [fMul, fNaN_of_finite ha, fNaN_of_finite hb, ha, hb, Bool.or_self, Bool.and_self, Bool.false_eq_true, if_false,
    if_true]

theorem fMul_isRounded {a b : F32} (ha : fFinite a = true) (hb : fFinite b = true) :
    isRounded (a.msb != b.msb) (fInt a * fInt b) 149 (fMul a b) := by
  have habs : (fInt a * fInt b).natAbs = fMag a * fMag b := by rw [Int.natAbs_mul, fInt_natAbs, fInt_natAbs]
  rw [fMul_of_finite ha hb, ← habs]
  refine fRound_isRounded 149 ?_
  rw [habs, fInt_eq, fInt_eq, signed_mul, Nat.cast_mul]

theorem fCvt_isRounded (q : BitVec 32) : isRounded q.msb (q.toInt * 2 ^ 149) 0 (fCvt q) := by
  have habs : (q.toInt * 2 ^ 149).natAbs = q.toInt.natAbs * 2 ^ 149 := Int.natAbs_mul _ _
  rw [fCvt, ← habs]
  refine fRound_isRounded 0 ?_
  have hsign : q.toInt = signed q.msb q.toInt.natAbs := by rw [BitVec.msb_eq_toInt, signed_natAbs_self]
  rw [habs, Nat.cast_mul]
  nth_rw 1 [hsign]
  cases q.msb <;> simp

theorem nan_operand {a b : F32} (h : fNaN a = true ∨ fNaN b = true) :
    fNaN (fAdd a b) = true ∧ fNaN (fSub a b) = true ∧ fNaN (fMul a b) = true := by
  have hor : (fNaN a || fNaN b) = true := by simpa using h
  simp only [fAdd, fSub, fMul, hor, if_true, fNaNOf_isNaN, and_self]

/-- An infinity with a value that is not the other one. -/
theorem fAddAs_inf {op : Nat} {x y b : F32} {n : Bool} (hn : fNaN b = false) (hb : b ≠ fInf (!n)) :
    fAddAs op x y (fInf n) b = fInf n ∧ fAddAs op x y b (fInf n) = fInf n := by
  cases hf : fFinite b with
  | true => simp [fAddAs, hf]
  | false =>
    obtain rfl : b = fInf n := by
      have heq := eq_fInf hn hf
      rcases Bool.eq_or_eq_not b.msb n with h | h
      · rwa [h] at heq
      · rw [h] at heq
        exact absurd heq hb
    simp [fAddAs]

theorem fAddAs_opposite (op : Nat) (x y : F32) (n : Bool) : fAddAs op x y (fInf n) (fInf (!n)) = fNaNOf op x y := by
  simp [fAddAs]

theorem fAdd_of_numbers {a b : F32} (ha : fNaN a = false) (hb : fNaN b = false) : fAdd a b = fAddAs 0 a b a b := by
  simp only [fAdd, ha, hb, Bool.or_self, Bool.false_eq_true, if_false]

theorem fSub_of_numbers {a b : F32} (ha : fNaN a = false) (hb : fNaN b = false) : fSub a b = fAddAs 1 a b a (fNeg b) := by
  simp only [fSub, ha, hb, Bool.or_self, Bool.false_eq_true, if_false]

theorem fNeg_nan (x : F32) : fNaN (fNeg x) = fNaN x := by
  rw [Bool.eq_iff_iff, fNaN_iff, fNaN_iff, fNeg_bitsOf]

theorem fMul_inf {b : F32} (n : Bool) (hn : fNaN b = false) (hz : fZero b = false) :
    fMul (fInf n) b = fInf (n != b.msb) ∧ fMul b (fInf n) = fInf (n != b.msb) := by
  simp [fMul, hn, hz, bne_comm]

theorem fMul_inf_zero {b : F32} (n : Bool) (hz : fZero b = true) :
    fNaN (fMul (fInf n) b) = true ∧ fNaN (fMul b (fInf n)) = true := by
  simp [fMul, hz, fNaNOf_isNaN]

/-- Settles O46: finite operands round their exact result (`fRound_isRounded`); the other clauses follow the branches of the
operations. -/
theorem floatOperationsRoundToNearest : Obligations.FloatOperationsRoundToNearest := by
  refine ⟨fun a b ha hb => ⟨?sum, ?difference, fMul_isRounded ha hb⟩, fCvt_isRounded, fun a b => nan_operand,
    fun n b hn => ⟨fun hb => ?infSum, fun hb => ?infDifference, fMul_inf n hn, fun hb => ?nanSum, fun hb => ?nanDifference,
      fMul_inf_zero n⟩⟩
  case sum =>
    rw [fAdd_of_finite ha hb]
    exact fAddFinite_isRounded a b
  case difference =>
    have h := fAddFinite_isRounded a (fNeg b)
    rwa [fNeg_fInt, fNeg_msb, ← Int.sub_eq_add_neg, ← fSub_of_finite ha hb] at h
  case infSum =>
    rw [fAdd_of_numbers (fInf_nan n) hn, fAdd_of_numbers hn (fInf_nan n)]
    exact ⟨(fAddAs_inf hn hb).1, (fAddAs_inf hn hb).2⟩
  case infDifference =>
    have hneg : fNeg b ≠ fInf (!n) := by rwa [ne_eq, fNeg_eq_fInf, Bool.not_not]
    rw [fSub_of_numbers (fInf_nan n) hn, fSub_of_numbers hn (fInf_nan n), fNeg_fInf]
    exact ⟨(fAddAs_inf ((fNeg_nan b).trans hn) hneg).1, (fAddAs_inf hn (by rwa [Bool.not_not])).2⟩
  case nanSum =>
    rw [hb, fAdd_of_numbers (fInf_nan n) (fInf_nan _), fAddAs_opposite]
    exact fNaNOf_isNaN _ _ _
  case nanDifference =>
    rw [hb, fSub_of_numbers (fInf_nan n) (fInf_nan n), fNeg_fInf, fAddAs_opposite]
    exact fNaNOf_isNaN _ _ _

end Sys2Proof.Machine
end

section
/-! PROOFS. The transform commands that move values and that start over (47_transform.md R445 to R447, R462): XF_LOADQ, XF_LOADF,
XF_STOREF and XF_CLRCARRY. -/

namespace Sys2Proof.Machine

/-! ## The degree (R440) -/

theorem degreeOk_iff (d : BitVec 4) : degreeOk d = true ↔ 2 ≤ d.toNat ∧ d.toNat ≤ 12 := by
  simp [degreeOk]

/-- A block has an even number of entries. -/
theorem blockSize_even {d : BitVec 4} (h : degreeOk d = true) : 2 ^ d.toNat % 2 = 0 := by
  have hpos := ((degreeOk_iff d).mp h).1
  exact Nat.mod_eq_zero_of_dvd (dvd_pow_self 2 (by omega))

section

variable {i : Instr} {s after : State} {d : BitVec 4} {body : Run State}

/-- A degree outside 2 to 12 is refused before every other check. -/
theorem refused_of_degree {rest : Unit → Run Unit} (he : exec i s = runCommand s i.cmdId (checkDegree d >>= rest) body after)
    (h : degreeOk d = false) : exec i s = .next (s.aborted i.cmdId.unit i.cmdId.op 5 (d.setWidth 32)) :=
  refused_of_check ⟨.badOperand, immWord d⟩ he (by rw [checkDegree_error h]; rfl)

/-- A command that only checks its degree completes. -/
theorem exec_of_degree {u : State} (he : exec i s = runCommand s i.cmdId (checkDegree d) (.ok u) s) (h : degreeOk d = true) :
    exec i s = .next u.complete := he.trans (runCommand_complete (checkDegree_ok h) rfl)

theorem refused_of_degree_only (he : exec i s = runCommand s i.cmdId (checkDegree d) body after) (h : degreeOk d = false) :
    exec i s = .next (s.aborted i.cmdId.unit i.cmdId.op 5 (d.setWidth 32)) :=
  refused_of_check ⟨.badOperand, immWord d⟩ he (checkDegree_error h)

end

section

variable {s : State} {d : BitVec 4} {addr : Word} {n : Nat}

theorem degreeThenDirect_ok (hd : degreeOk d = true) (hn : addr.toNat + n ≤ s.cfg.bufSize) :
    (checkDegree d >>= fun _ => s.checkDirect addr n) = .ok () :=
  Run.bind_ok.mpr ⟨(), checkDegree_ok hd, require_ok.mpr (decide_eq_true hn)⟩

theorem degreeThenDirect_outside (hd : degreeOk d = true) (hn : s.cfg.bufSize < addr.toNat + n) :
    (checkDegree d >>= fun _ => s.checkDirect addr n) = .error ⟨.outOfBounds, addr⟩ := by
  rw [checkDegree_ok hd]
  exact require_error.mpr ⟨decide_eq_false (Nat.not_le.mpr hn), rfl⟩

end

/-! ## Little-endian values in BUF (R442) -/

/-- Byte `j` of the value at `a` is the byte at `a + j`. -/
theorem wordAt_byte (buf : Store 8) (a : Nat) {j : Nat} (hj : j < 4) :
    (wordAt buf a).extractLsb' (8 * j) 8 = buf.get (a + j) := by
  refine BitVec.eq_of_getElem_eq fun k hk => ?_
  have hbyte : (8 * j + k) / 8 = j := by omega
  have hbit : (8 * j + k) % 8 = k := by omega
  rw [BitVec.getElem_extractLsb', wordAt, BitVec.getLsbD_ofNat, testBit_leNat, hbyte, hbit,
    decide_eq_true (show 8 * j + k < 32 by omega), Bool.true_and,
    List.getD_eq_getElem _ _ (by simpa [memRead] using hj), BitVec.getLsbD_eq_getElem hk]
  simp [memRead]

/-- The loop of XF_STOREF leaves each entry's bytes at its address: its own turn writes them, and no later one touches them. -/
theorem storeFloats_get (xa : Store 32) (addr : Nat) {n k j : Nat} (hk : k < n) (hj : j < 4) (i : Nat) (buf : Store 8) :
    (storeFloats none xa addr n i buf).get (addr + 4 * (i + k) + j) = (xa.get (i + k)).extractLsb' (8 * j) 8 := by
  induction n generalizing i k buf with
  | zero => exact absurd hk (Nat.not_lt_zero k)
  | succ n ih =>
    rw [storeFloats]
    cases k with
    | zero =>
      rw [(storeFloats_writtenIn none xa addr n (i + 1) _).get_out (by omega), memWriteLE_get, if_pos (by omega),
        Nat.add_zero, Nat.add_sub_cancel_left, leByte_toNat]
    | succ k =>
      have hnext := ih (Nat.lt_of_succ_lt_succ hk) (i + 1) (memWriteLE none buf (addr + 4 * i) 4 (xa.get i).toNat)
      rwa [Nat.add_right_comm i 1 k] at hnext

/-! ## The commands -/

theorem exec_xfLoadq (s : State) (d : BitVec 4) :
    exec (.xfLoadq d) s = runCommand s (Instr.xfLoadq d).cmdId
      (checkDegree d >>= fun _ => s.checkDirect (s.arg 0) (4 * 2 ^ d.toNat))
      (.ok (s.xfLoadqBody (2 ^ d.toNat) (s.arg 0))) s := rfl

theorem exec_xfLoadf (s : State) (d : BitVec 4) :
    exec (.xfLoadf d) s = runCommand s (Instr.xfLoadf d).cmdId
      (checkDegree d >>= fun _ => s.checkDirect (s.arg 0) (4 * 2 ^ d.toNat))
      (.ok (s.xfLoadfBody (2 ^ d.toNat) (s.arg 0))) s := rfl

theorem exec_xfStoref (s : State) (d : BitVec 4) :
    exec (.xfStoref d) s = runCommand s (Instr.xfStoref d).cmdId
      (checkDegree d >>= fun _ => s.checkDirect (s.arg 0) (4 * 2 ^ d.toNat))
      (.ok { s with buf := storeFloats s.taint s.xf.xa (s.arg 0).toNat (2 ^ d.toNat) 0 s.buf }) s := rfl

theorem exec_xfLoadq_ok {s : State} {d : BitVec 4} (hd : degreeOk d = true)
    (hn : (s.arg 0).toNat + 4 * 2 ^ d.toNat ≤ s.cfg.bufSize) :
    exec (.xfLoadq d) s = .next (s.xfLoadqBody (2 ^ d.toNat) (s.arg 0)).complete :=
  (exec_xfLoadq s d).trans (runCommand_complete (degreeThenDirect_ok hd hn) rfl)

/-- Setting the first `n` entries of an array, read inside and outside them. -/
theorem setBlock_get (x : Store 32) {n i : Nat} (f : Nat → F32) (hi : i < n) : (x.setSpan 0 n f).get i = f i := by
  rw [Store.get_setSpan, if_pos (by omega)]

theorem setBlock_get_out (x : Store 32) {n i : Nat} (f : Nat → F32) (hi : n ≤ i) : (x.setSpan 0 n f).get i = x.get i := by
  rw [Store.get_setSpan, if_neg (by omega)]

/-- Settles O48: the bytes of a loaded entry (`wordAt_byte`) and of a stored one (`storeFloats_get`). -/
theorem xfLoadsAndStores : Obligations.XfLoadsAndStores := by
  refine ⟨degreeOk_iff, fun s d => ⟨fun hd hn => ⟨?loadq, ?loadf, fun ht => ?storef⟩, fun hd hn => ?outside, fun hd => ?degree⟩⟩
  case loadq =>
    exact ⟨_, exec_xfLoadq_ok hd hn, rfl,
      fun i hi j hj => (congrArg _ (setBlock_get _ _ hi)).trans (wordAt_byte _ _ hj), fun i hi => setBlock_get_out _ _ hi⟩
  case loadf =>
    exact ⟨_, (exec_xfLoadf s d).trans (runCommand_complete (degreeThenDirect_ok hd hn) rfl), rfl,
      fun i hi j hj => (congrArg _ (setBlock_get _ _ hi)).trans (wordAt_byte _ _ hj), fun i hi => setBlock_get_out _ _ hi⟩
  case storef =>
    have hexec := (exec_xfStoref s d).trans (runCommand_complete (degreeThenDirect_ok hd hn) rfl)
    refine ⟨_, hexec, rfl, fun i hi j hj => ?_, fun a ha => (xfStoref_writtenIn hexec).get_out (by omega)⟩
    have hget := storeFloats_get s.xf.xa (s.arg 0).toNat hi hj 0 s.buf
    rw [State.complete_buf, taint_of_untainted ht]
    rwa [Nat.zero_add] at hget
  case outside =>
    exact ⟨refused_of_check ⟨.outOfBounds, s.arg 0⟩ (exec_xfLoadq s d) (degreeThenDirect_outside hd hn),
      refused_of_check ⟨.outOfBounds, s.arg 0⟩ (exec_xfLoadf s d) (degreeThenDirect_outside hd hn),
      refused_of_check ⟨.outOfBounds, s.arg 0⟩ (exec_xfStoref s d) (degreeThenDirect_outside hd hn)⟩
  case degree =>
    exact ⟨refused_of_degree (exec_xfLoadq s d) hd, refused_of_degree (exec_xfLoadf s d) hd,
      refused_of_degree (exec_xfStoref s d) hd⟩

/-- Settles O51: the answer of XF_CLRCARRY is what SRST_UNIT 9 leaves of unit XF (R162). -/
theorem xfClrcarryZeroesCarry : Obligations.XfClrcarryZeroesCarry := by
  refine ⟨by decide, fun s => ?_⟩
  have hclr : exec .xfClrcarry s = .next ({ s with xf := { s.xf with xc := blankStore 0 } } : State).finished :=
    finished_of_answer rfl
  have hsrst := exec_srstUnit_ok (s := s) (u := 9) (.inl (by decide))
  exact ⟨⟨_, hclr, rfl, fun _ => rfl⟩, ⟨_, _, hclr, hsrst, rfl⟩⟩

end Sys2Proof.Machine
end

section
/-! PROOFS. The stages of the transform on a block (47_transform.md R450, R455, R460, R461): XF_IQUANT, XF_GIVENS, XF_IPLOT and
XF_ILOT, and that each of them keeps a zero block zero. -/

namespace Sys2Proof.Machine

/-! ## Zeros -/

theorem fFinite_of_zero {x : F32} (h : fZero x = true) : fFinite x = true := by
  rw [fZero_iff] at h
  rw [fFinite_iff, h]
  decide

theorem fInt_of_zero {x : F32} (h : fZero x = true) : fInt x = 0 := by
  rw [← Int.natAbs_eq_zero, fInt_natAbs]
  exact (fZero_iff_fMag x).mp h

theorem fZero_of_fInt {x : F32} (h : fInt x = 0) : fZero x = true := by
  rw [fZero_iff_fMag, ← fInt_natAbs, h]
  rfl

theorem fRound_zero (neg : Bool) (u : Nat) : fZero (fRound neg 0 u) = true := by
  have hzero : roundBits 0 u = 0 := by simp [roundBits]
  rw [fZero_iff, fRound_eq, hzero, fOfBits_bitsOf (by decide)]

theorem fNeg_zero (x : F32) : fZero (fNeg x) = fZero x := by
  rw [Bool.eq_iff_iff, fZero_iff, fZero_iff, fNeg_bitsOf]

theorem fAddFinite_zero {a b : F32} (ha : fZero a = true) (hb : fZero b = true) : fZero (fAddFinite a b) = true := by
  have hv : fInt a + fInt b = 0 := by rw [fInt_of_zero ha, fInt_of_zero hb]; rfl
  rw [fAddFinite, hv, if_pos rfl]
  exact fRound_zero _ _

theorem fAdd_zero {a b : F32} (ha : fZero a = true) (hb : fZero b = true) : fZero (fAdd a b) = true := by
  rw [fAdd_of_finite (fFinite_of_zero ha) (fFinite_of_zero hb)]
  exact fAddFinite_zero ha hb

theorem fSub_zero {a b : F32} (ha : fZero a = true) (hb : fZero b = true) : fZero (fSub a b) = true := by
  rw [fSub_of_finite (fFinite_of_zero ha) (fFinite_of_zero hb)]
  exact fAddFinite_zero ha ((fNeg_zero b).trans hb)

/-- A product with a zero factor is a zero. -/
theorem fMul_zero {a b : F32} (ha : fFinite a = true) (hb : fFinite b = true) (hz : fZero a = true ∨ fZero b = true) :
    fZero (fMul a b) = true := by
  have hmag : fMag a * fMag b = 0 := by
    rw [fZero_iff_fMag, fZero_iff_fMag] at hz
    exact Nat.mul_eq_zero.mpr hz
  rw [fMul_of_finite ha hb, hmag]
  exact fRound_zero _ _

theorem fCvt_zero : fZero (fCvt 0) = true := fRound_zero _ _

/-- The first `n` entries of an array are zeros. -/
def ZeroBlock (x : Store 32) (n : Nat) : Prop := ∀ i < n, fZero (x.get i) = true

theorem ZeroBlock.setBlock (x : Store 32) {n : Nat} {f : Nat → F32} (h : ∀ i < n, fZero (f i) = true) :
    ZeroBlock (x.setSpan 0 n f) n := fun i hi => by
  rw [setBlock_get x f hi]
  exact h i hi

/-! ## XF_IQUANT (R450) -/

theorem exec_xfIquant (s : State) (d : BitVec 4) :
    exec (.xfIquant d) s = runCommand s (Instr.xfIquant d).cmdId (checkDegree d)
      (.ok (s.xfIquantBody d.toNat (s.arg 1) (s.arg 2))) s := rfl

theorem xfWeight_finite (degree : Nat) (wcode coef : Word) (i : Nat) : fFinite (xfWeight degree wcode coef i) = true := by
  unfold xfWeight
  split
  · next h => exact h
  · rfl

/-- A zero residual is a zero, whatever its weight. -/
theorem iquant_zero (degree : Nat) (wcode coef : Word) (i : Nat) :
    fZero (fMul (fCvt 0) (xfWeight degree wcode coef i)) = true :=
  fMul_zero (fFinite_of_zero fCvt_zero) (xfWeight_finite ..) (.inl fCvt_zero)

/-! ## XF_GIVENS (R455) -/

theorem exec_xfGivens (s : State) (d : BitVec 4) :
    exec (.xfGivens d) s = runCommand s (Instr.xfGivens d).cmdId (checkDegree d) (.ok (s.xfGivensBody d.toNat)) s := rfl

/-- The sum of two squares is near 1 when it is so in quanta of `1 / q`. -/
theorem unit_of_quanta {c s q t : Int} (hq : 0 < q) (ht : t * 2 ^ 20 ≤ q * q) (h : |c * c + s * s - q * q| ≤ t) :
    |((c : ℚ) / q) ^ 2 + ((s : ℚ) / q) ^ 2 - 1| ≤ 1 / 2 ^ 20 := by
  have hq' : (0 : ℚ) < q := by exact_mod_cast hq
  have hscale : ((c : ℚ) / q) ^ 2 + ((s : ℚ) / q) ^ 2 - 1 = (c * c + s * s - q * q) / (q * q) := by
    field_simp
  rw [hscale, abs_div, abs_of_pos (by positivity : (0 : ℚ) < q * q), div_le_div_iff₀ (by positivity) (by positivity), one_mul]
  exact_mod_cast (Int.mul_le_mul_of_nonneg_right h (by decide)).trans ht

/-- The side conditions that every rotation in use meets. -/
theorem rotation_conditions {degree : Nat} {r : Config.Rotation} (h : r ∈ xfRotations degree) :
    r.i ≠ r.j ∧ r.i % 2 = 1 ∧ r.j % 2 = 1 ∧ r.i < 2 ^ degree ∧ r.j < 2 ^ degree ∧ fFinite r.c = true ∧ fFinite r.s = true
    ∧ |((fInt r.c : ℚ) / 2 ^ 149) ^ 2 + ((fInt r.s : ℚ) / 2 ^ 149) ^ 2 - 1| ≤ 1 / 2 ^ 20 := by
  have hok : rotationOk (2 ^ degree) r = true := (List.mem_filter.mp h).2
  simp only [rotationOk, Bool.and_eq_true, bne_iff_ne, beq_iff_eq, decide_eq_true_eq] at hok
  obtain ⟨⟨⟨⟨⟨⟨⟨hne, hi⟩, hj⟩, hin⟩, hjn⟩, hc⟩, hs⟩, hunit⟩ := hok
  rw [← fInt_natAbs, ← fInt_natAbs, Nat.cast_add, Int.natAbs_mul_self, Int.natAbs_mul_self] at hunit
  rw [show ((2 ^ 298 : Nat) : Int) = 2 ^ 149 * 2 ^ 149 by rw [Nat.cast_pow, Nat.cast_ofNat, ← pow_add]] at hunit
  refine ⟨hne, hi, hj, hin, hjn, hc, hs, ?_⟩
  have hnear := unit_of_quanta (t := (2 ^ 278 : Nat)) (by positivity)
    (by rw [Nat.cast_pow, Nat.cast_ofNat, ← pow_add, ← pow_add])
    ((Int.abs_eq_natAbs _).trans_le (Int.ofNat_le.mpr hunit))
  rwa [Int.cast_pow, Int.cast_ofNat] at hnear

section

variable (xa : Store 32) {r : Config.Rotation}

theorem rotate_get_i (h : r.i ≠ r.j) :
    (rotate xa r).get r.i = fSub (fMul r.c (xa.get r.i)) (fMul r.s (xa.get r.j)) := by
  rw [rotate, Store.get_set_other _ _ h, Store.get_set_same]

theorem rotate_get_j (r : Config.Rotation) :
    (rotate xa r).get r.j = fAdd (fMul r.s (xa.get r.i)) (fMul r.c (xa.get r.j)) := Store.get_set_same ..

theorem rotate_get_other {k : Nat} (hi : k ≠ r.i) (hj : k ≠ r.j) : (rotate xa r).get k = xa.get k := by
  rw [rotate, Store.get_set_other _ _ hj, Store.get_set_other _ _ hi]

end

/-- Rotations leave alone what is no odd entry of the block. -/
theorem rotations_get_out {n k : Nat} (hk : k % 2 = 0 ∨ n ≤ k) {rs : List Config.Rotation}
    (h : ∀ r ∈ rs, r.i % 2 = 1 ∧ r.j % 2 = 1 ∧ r.i < n ∧ r.j < n) (xa : Store 32) :
    (rs.foldl rotate xa).get k = xa.get k := by
  induction rs generalizing xa with
  | nil => rfl
  | cons r rest ih =>
    obtain ⟨hi, hj, hin, hjn⟩ := h r (List.mem_cons_self ..)
    rw [List.foldl_cons, ih fun q hq => h q (List.mem_cons_of_mem _ hq)]
    exact rotate_get_other xa (by omega) (by omega)

/-- A rotation by finite factors keeps a zero block zero. -/
theorem ZeroBlock.rotate {xa : Store 32} {n : Nat} (hz : ZeroBlock xa n) {r : Config.Rotation} (hne : r.i ≠ r.j) (hi : r.i < n)
    (hj : r.j < n) (hc : fFinite r.c = true) (hs : fFinite r.s = true) : ZeroBlock (rotate xa r) n := by
  have hmul : ∀ f, fFinite f = true → ∀ k < n, fZero (fMul f (xa.get k)) = true := fun f hf k hk =>
    fMul_zero hf (fFinite_of_zero (hz k hk)) (.inr (hz k hk))
  intro k hk
  by_cases hkj : k = r.j
  · rw [hkj, rotate_get_j]
    exact fAdd_zero (hmul _ hs _ hi) (hmul _ hc _ hj)
  · by_cases hki : k = r.i
    · rw [hki, rotate_get_i _ hne]
      exact fSub_zero (hmul _ hc _ hi) (hmul _ hs _ hj)
    · rw [rotate_get_other _ hki hkj]
      exact hz k hk

theorem ZeroBlock.rotations {xa : Store 32} (degree : Nat) (hz : ZeroBlock xa (2 ^ degree)) :
    ZeroBlock ((xfRotations degree).foldl Machine.rotate xa) (2 ^ degree) := by
  have hall : ∀ r ∈ xfRotations degree, _ := fun r => rotation_conditions
  generalize xfRotations degree = rs at hall
  induction rs generalizing xa with
  | nil => exact hz
  | cons r rest ih =>
    obtain ⟨hne, -, -, hi, hj, hc, hs, -⟩ := hall r (List.mem_cons_self ..)
    exact ih (hz.rotate hne hi hj hc hs) fun q hq => hall q (List.mem_cons_of_mem _ hq)

/-- Settles O49: the weights are finite, and the rotations in use meet R455's conditions (`rotation_conditions`). -/
theorem xfIquantAndGivens : Obligations.XfIquantAndGivens := by
  intro s d
  refine ⟨fun hd => ⟨refused_of_degree_only (exec_xfIquant s d) hd, refused_of_degree_only (exec_xfGivens s d) hd⟩,
    fun hd => ⟨?iquant, ?givens⟩⟩
  case iquant =>
    refine ⟨_, exec_of_degree (exec_xfIquant s d) hd, rfl, fun i hi => ?inside,
      fun i hi => ⟨setBlock_get_out _ _ hi, setBlock_get_out _ _ hi⟩⟩
    case inside =>
      have hw : (s.xf.xw.setSpan 0 (2 ^ d.toNat) (xfWeight d.toNat (s.arg 1) (s.arg 2))).get i = _ := setBlock_get _ _ hi
      have ha := setBlock_get s.xf.xa (fun i => fMul (fCvt (s.xf.xq.get i)) (xfWeight d.toNat (s.arg 1) (s.arg 2) i)) hi
      refine ⟨(congrArg _ hw).trans (xfWeight_finite ..), hw, ha.trans (congrArg _ hw.symm), fun hq => ?_⟩
      rw [hq] at ha
      exact (congrArg _ ha).trans (iquant_zero ..)
  case givens =>
    refine ⟨_, exec_of_degree (exec_xfGivens s d) hd, rfl, rfl, fun r hr => ?rotation,
      fun i hi => rotations_get_out hi (fun r hr => ?odd) s.xf.xa, ZeroBlock.rotations d.toNat⟩
    case rotation =>
      obtain ⟨hne, hi, hj, hin, hjn, hc, hs, hunit⟩ := rotation_conditions hr
      exact ⟨hne, hi, hj, hin, hjn, hc, hs, hunit,
        fun xa => ⟨rotate_get_i xa hne, rotate_get_j xa r, fun k hki hkj => rotate_get_other xa hki hkj⟩⟩
    case odd =>
      obtain ⟨-, hi, hj, hin, hjn, -⟩ := rotation_conditions hr
      exact ⟨hi, hj, hin, hjn⟩

/-! ## XF_IPLOT and XF_ILOT (R460, R461) -/

theorem exec_xfIplot (s : State) (d : BitVec 4) :
    exec (.xfIplot d) s = runCommand s (Instr.xfIplot d).cmdId (checkDegree d) (.ok (s.xfIplotBody (2 ^ d.toNat))) s := rfl

theorem exec_xfIlot (s : State) (d : BitVec 4) :
    exec (.xfIlot d) s = runCommand s (Instr.xfIlot d).cmdId (checkDegree d) (.ok (s.xfIlotBody (2 ^ d.toNat))) s := rfl

/-- The two entries of a pair after XF_ILOT: the even one of the carry with the odd one of the block. -/
theorem ilotEntry_pair (xa xc : Store 32) {i : Nat} (hi : i % 2 = 0) :
    ilotEntry xa xc i = fAdd (xc.get i) (xa.get (i + 1)) ∧ ilotEntry xa xc (i + 1) = fSub (xc.get i) (xa.get (i + 1)) :=
  ⟨if_pos hi, if_neg (by omega)⟩

/-- XF_IPLOT pairs the block with itself. -/
theorem iplotEntry_eq (xa : Store 32) (i : Nat) : iplotEntry xa i = ilotEntry xa xa i := rfl

/-- The other entry of a pair. -/
theorem pair_lt {d : BitVec 4} (hd : degreeOk d = true) {i : Nat} (hi : i < 2 ^ d.toNat) (heven : i % 2 = 0) :
    i + 1 < 2 ^ d.toNat := by
  have := blockSize_even hd
  omega

theorem ilotEntry_zero {xa xc : Store 32} {n i : Nat} (ha : ZeroBlock xa n) (hc : ZeroBlock xc n) (hn : n % 2 = 0) (hi : i < n) :
    fZero (ilotEntry xa xc i) = true := by
  unfold ilotEntry
  split
  · exact fAdd_zero (hc i hi) (ha (i + 1) (by omega))
  · exact fSub_zero (hc (i - 1) (by omega)) (ha i hi)

/-- Settles O50: each pair's sum and difference (`ilotEntry_pair`). -/
theorem xfLappedTransform : Obligations.XfLappedTransform := by
  intro s d
  refine ⟨fun hd => ⟨refused_of_degree_only (exec_xfIplot s d) hd, refused_of_degree_only (exec_xfIlot s d) hd⟩,
    fun hd => ⟨?iplot, ?ilot⟩⟩
  case iplot =>
    refine ⟨_, exec_of_degree (exec_xfIplot s d) hd, rfl, fun i hi heven => ?_,
      fun i hi => setBlock_get_out _ _ hi⟩
    obtain ⟨hsum, hdiff⟩ := ilotEntry_pair s.xf.xa s.xf.xa heven
    rw [← iplotEntry_eq] at hsum hdiff
    exact ⟨(setBlock_get _ _ hi).trans hsum, (setBlock_get _ _ (pair_lt hd hi heven)).trans hdiff⟩
  case ilot =>
    refine ⟨_, exec_of_degree (exec_xfIlot s d) hd, rfl, fun i hi heven => ?_,
      fun i hi => setBlock_get _ _ hi, fun i hi => ⟨setBlock_get_out _ _ hi, setBlock_get_out _ _ hi⟩⟩
    obtain ⟨hsum, hdiff⟩ := ilotEntry_pair s.xf.xa s.xf.xc heven
    exact ⟨(setBlock_get _ _ hi).trans hsum, (setBlock_get _ _ (pair_lt hd hi heven)).trans hdiff⟩

end Sys2Proof.Machine
end

section
/-! PROOFS. The fixed-point cosines and sums of XF_IDCT over the reals (47_transform.md R465; log 9): each half-angle step takes
the square root of the error before it, and the cosines start with so many fraction bits that all of them stay within 2^-512. -/

namespace Sys2Proof.Machine

/-! ## The half-angle formula -/

/-- The sign of a cosine by its place in the period of `2^(e + 2)` steps. -/
theorem cos_sign (e m : Nat) :
    if m % 2 ^ (e + 2) ≤ 2 ^ e ∨ 3 * 2 ^ e ≤ m % 2 ^ (e + 2) then 0 ≤ Real.cos (Real.pi * m / 2 ^ (e + 1))
    else Real.cos (Real.pi * m / 2 ^ (e + 1)) ≤ 0 := by
  obtain ⟨p, hp⟩ : ∃ p, p = m % 2 ^ (e + 2) := ⟨_, rfl⟩
  have hpos : (0 : ℝ) < 2 ^ e := by positivity
  have hpi := Real.pi_pos
  have hlt : (p : ℝ) < 4 * 2 ^ e := by
    have h := Nat.mod_lt m (Nat.two_pow_pos (e + 2))
    rw [← hp, Nat.pow_add, Nat.mul_comm] at h
    exact_mod_cast h
  have hperiod : Real.cos (Real.pi * m / 2 ^ (e + 1)) = Real.cos (Real.pi / 2 * (p / 2 ^ e)) := by
    have hm : (m : ℝ) = p + 2 ^ (e + 2) * (m / 2 ^ (e + 2) : Nat) := by
      rw [hp]
      exact_mod_cast (Nat.mod_add_div m (2 ^ (e + 2))).symm
    rw [← Real.cos_add_nat_mul_two_pi (Real.pi / 2 * (p / 2 ^ e)) (m / 2 ^ (e + 2)), hm]
    congr 1
    field_simp
    ring
  rw [← hp, hperiod]
  split
  · next h =>
    rcases h with h | h
    · have hq : (p : ℝ) / 2 ^ e ≤ 1 := (div_le_one hpos).mpr (by exact_mod_cast h)
      have hq0 : (0 : ℝ) ≤ p / 2 ^ e := by positivity
      exact Real.cos_nonneg_of_mem_Icc ⟨by nlinarith, by nlinarith⟩
    · have hq : 3 ≤ (p : ℝ) / 2 ^ e := (le_div_iff₀ hpos).mpr (by exact_mod_cast h)
      have hq4 : (p : ℝ) / 2 ^ e ≤ 4 := (div_le_iff₀ hpos).mpr hlt.le
      rw [← Real.cos_sub_two_pi]
      exact Real.cos_nonneg_of_mem_Icc ⟨by nlinarith, by nlinarith⟩
  · next h =>
    obtain ⟨h1, h3⟩ := not_or.mp h
    have hq : 1 ≤ (p : ℝ) / 2 ^ e := (le_div_iff₀ hpos).mpr (by rw [one_mul]; exact_mod_cast (Nat.not_le.mp h1).le)
    have hq3 : (p : ℝ) / 2 ^ e ≤ 3 := (div_le_iff₀ hpos).mpr (by exact_mod_cast (Nat.not_le.mp h3).le)
    exact Real.cos_nonpos_of_pi_div_two_le_of_le (by nlinarith) (by nlinarith)

/-- Square roots differ by no more than the root of the difference of the squares. -/
theorem abs_sub_le_of_sq {g t η : ℝ} (hg : 0 ≤ g) (ht : 0 ≤ t) (hη : 0 ≤ η) (h : |g ^ 2 - t ^ 2| ≤ η ^ 2) : |g - t| ≤ η := by
  refine abs_le_of_sq_le_sq ?_ hη
  calc (g - t) ^ 2 = |g - t| * |g - t| := by rw [← sq_abs, sq]
    _ ≤ |g - t| * (g + t) := by
      refine mul_le_mul_of_nonneg_left (abs_le.mpr ⟨by linarith, by linarith⟩) (abs_nonneg _)
    _ = |g ^ 2 - t ^ 2| := by rw [← abs_of_nonneg (add_nonneg hg ht), ← abs_mul]; congr 1; ring
    _ ≤ η ^ 2 := h

/-- How far the fixed-point cosine of `pi * m / 2^e` is from the real one. -/
noncomputable def cosError (bits e m : Nat) : ℝ := |(cosFix bits e m : ℝ) / 2 ^ bits - Real.cos (Real.pi * m / 2 ^ e)|

/-- The two values at `e = 0` are exact. -/
theorem cosError_zero (bits m : Nat) : cosError bits 0 m = 0 := by
  have hne : (2 : ℝ) ^ bits ≠ 0 := by positivity
  rw [cosError, pow_zero, div_one, mul_comm, Real.cos_nat_mul_pi, cosFix]
  split
  · next h => rw [(Nat.even_iff.mpr h).neg_one_pow]; push_cast; rw [div_self hne, sub_self, abs_zero]
  · next h => rw [(Nat.odd_iff.mpr (by omega)).neg_one_pow]; push_cast; rw [neg_div, div_self hne, sub_self, abs_zero]

/-- The cosine's size at the half angle, before its sign. -/
def cosRoot (bits e m : Nat) : Nat := Nat.sqrt ((2 ^ bits + cosFix bits e m).toNat * 2 ^ (bits - 1))

theorem cosFix_succ (bits e m : Nat) : cosFix bits (e + 1) m =
    if m % 2 ^ (e + 2) ≤ 2 ^ e ∨ 3 * 2 ^ e ≤ m % 2 ^ (e + 2) then (cosRoot bits e m : Int) else -(cosRoot bits e m : Int) := rfl

/-- The sign is right, so the error of a cosine is that of its size. -/
theorem cosError_succ (bits e m : Nat) :
    cosError bits (e + 1) m = |(cosRoot bits e m : ℝ) / 2 ^ bits - abs (Real.cos (Real.pi * m / 2 ^ (e + 1)))| := by
  have hsign := cos_sign e m
  rw [cosError, cosFix_succ]
  split
  · next h =>
    rw [if_pos h] at hsign
    rw [abs_of_nonneg hsign, Int.cast_natCast]
  · next h =>
    rw [if_neg h] at hsign
    rw [abs_of_nonpos hsign, Int.cast_neg, Int.cast_natCast, ← abs_neg]
    congr 1
    ring

/-- A half-angle step: the error is at most the root of the one before, and the rounding of the square root. -/
theorem cosError_step {bits e m : Nat} {η : ℝ} (hbits : bits ≠ 0) (hη : 0 ≤ η) (h : cosError bits e m ≤ 2 * η ^ 2) :
    cosError bits (e + 1) m ≤ η + 1 / 2 ^ bits := by
  have hB : (0 : ℝ) < 2 ^ bits := by positivity
  obtain ⟨X, hX⟩ : ∃ X, X = (2 ^ bits + cosFix bits e m).toNat := ⟨_, rfl⟩
  obtain ⟨g, hg⟩ : ∃ g, g = √((X * 2 ^ (bits - 1) : Nat) : ℝ) / 2 ^ bits := ⟨_, rfl⟩
  obtain ⟨t, ht⟩ : ∃ t, t = |Real.cos (Real.pi * m / 2 ^ (e + 1))| := ⟨_, rfl⟩
  have hround : |(cosRoot bits e m : ℝ) / 2 ^ bits - g| ≤ 1 / 2 ^ bits := by
    have h1 := Real.nat_sqrt_le_real_sqrt (a := X * 2 ^ (bits - 1))
    have h2 := Real.real_sqrt_le_nat_sqrt_succ (a := X * 2 ^ (bits - 1))
    rw [cosRoot, ← hX, hg, ← sub_div, abs_div, abs_of_pos hB]
    exact div_le_div_of_nonneg_right (abs_le.mpr ⟨by linarith, by linarith⟩) hB.le
  have hg2 : g ^ 2 = X / 2 ^ bits / 2 := by
    obtain ⟨k, rfl⟩ := Nat.exists_eq_succ_of_ne_zero hbits
    rw [hg, div_pow, Real.sq_sqrt (Nat.cast_nonneg _), Nat.succ_sub_one, Nat.succ_eq_add_one]
    push_cast
    field_simp
    ring
  have ht2 : t ^ 2 = (1 + Real.cos (Real.pi * m / 2 ^ e)) / 2 := by
    rw [ht, sq_abs, Real.cos_sq, show 2 * (Real.pi * m / 2 ^ (e + 1)) = Real.pi * m / 2 ^ e by rw [pow_succ]; field_simp]
    ring
  have hclamp : |(X : ℝ) / 2 ^ bits - (1 + Real.cos (Real.pi * m / 2 ^ e))| ≤ cosError bits e m := by
    have hcos := Real.neg_one_le_cos (Real.pi * m / 2 ^ e)
    have hmax : (X : ℝ) / 2 ^ bits = max (1 + (cosFix bits e m : ℝ) / 2 ^ bits) 0 := by
      have hcast : (X : ℝ) = max (2 ^ bits + (cosFix bits e m : ℝ)) 0 := by
        rw [hX]
        exact_mod_cast congrArg (Int.cast (R := ℝ)) (Int.toNat_eq_max (2 ^ bits + cosFix bits e m))
      rw [hcast, ← max_div_div_right hB.le, add_div, div_self hB.ne', zero_div]
    have hself : 1 + Real.cos (Real.pi * m / 2 ^ e) = max (1 + Real.cos (Real.pi * m / 2 ^ e)) 0 :=
      (max_eq_left (by linarith)).symm
    rw [hmax, hself]
    refine (abs_max_sub_max_le_abs _ _ _).trans (le_of_eq ?_)
    rw [cosError, add_sub_add_left_eq_sub]
  have hsq : |g ^ 2 - t ^ 2| ≤ η ^ 2 := by
    rw [hg2, ht2, ← sub_div, abs_div, abs_of_pos (two_pos : (0 : ℝ) < 2)]
    linarith
  have hg0 : 0 ≤ g := by rw [hg]; positivity
  have hroot := abs_sub_le_of_sq hg0 (ht ▸ abs_nonneg _) hη hsq
  rw [cosError_succ, ← ht]
  calc _ ≤ _ := abs_sub_le _ g _
    _ ≤ η + 1 / 2 ^ bits := by linarith

/-- With `512 * 2^d` bits the cosine after `k + 1` steps is right to `512 * 2^(d - k)` bits. -/
theorem cosError_le {d k m : Nat} (hk : k ≤ d) : cosError (cosBits d) (k + 1) m ≤ (1 / 2) ^ (512 * 2 ^ (d - k)) := by
  have hbits : cosBits d ≠ 0 := by unfold cosBits; positivity
  induction k with
  | zero =>
    have hexact : cosError (cosBits d) 0 m ≤ 2 * 0 ^ 2 := by
      rw [cosError_zero]
      norm_num
    calc _ ≤ 0 + 1 / 2 ^ cosBits d := cosError_step hbits le_rfl hexact
      _ = (1 / 2) ^ (512 * 2 ^ (d - 0)) := by rw [zero_add, Nat.sub_zero, one_div_pow, cosBits]
  | succ k ih =>
    obtain ⟨j, hj⟩ : ∃ j, d - (k + 1) = j := ⟨_, rfl⟩
    have hj1 : d - k = j + 1 := by omega
    obtain ⟨δ, hδ⟩ : ∃ δ : ℝ, δ = (1 / 2) ^ (512 * 2 ^ j) := ⟨_, rfl⟩
    have hδpos : 0 < δ := hδ ▸ by positivity
    have hsq : δ ^ 2 = (1 / 2) ^ (512 * 2 ^ (d - k)) := by
      rw [hδ, hj1, ← pow_mul]
      congr 1
      ring
    have hstep := cosError_step (m := m) (e := k + 1) (η := 3 / 4 * δ) hbits (by positivity)
      ((ih (by omega)).trans (by nlinarith))
    have hulp : 1 / 2 ^ cosBits d ≤ δ / 4 := by
      have h2 : 2 ^ (j + 1) ≤ 2 ^ d := Nat.pow_le_pow_right (by decide) (by omega)
      have hge : 1 ≤ 2 ^ j := Nat.one_le_two_pow
      have hexp : 512 * 2 ^ j + 2 ≤ cosBits d := by unfold cosBits; rw [pow_succ] at h2; omega
      calc (1 : ℝ) / 2 ^ cosBits d = (1 / 2) ^ cosBits d := by rw [one_div_pow]
        _ ≤ (1 / 2) ^ (512 * 2 ^ j + 2) := pow_le_pow_of_le_one (by norm_num) (by norm_num) hexp
        _ = δ / 4 := by rw [pow_add, hδ]; ring
    rw [hj, ← hδ]
    linarith

/-! ## The factors and the sums (R465) -/

/-- The factor of `X[k]` in `x[n]` over the reals. -/
noncomputable def dctCos (d n k : Nat) : ℝ :=
  if k = 0 then Real.cos (Real.pi / 4) else Real.cos (Real.pi * (2 * n + 1) * k / (2 * 2 ^ d))

/-- All fixed-point factors are right to 500 bits. -/
theorem dctFactor_error {d : Nat} (hd : 2 ≤ d) (n k : Nat) :
    |(dctFactor d k n : ℝ) / 2 ^ cosBits d - dctCos d n k| ≤ 1 / 2 ^ 500 := by
  have hfine : ∀ j ≤ d, ∀ m, cosError (cosBits d) (j + 1) m ≤ 1 / 2 ^ 500 := fun j hj m => by
    have hexp : 500 ≤ 512 * 2 ^ (d - j) := by
      have := Nat.one_le_two_pow (n := d - j)
      omega
    calc cosError (cosBits d) (j + 1) m ≤ (1 / 2) ^ (512 * 2 ^ (d - j)) := cosError_le hj
      _ ≤ (1 / 2) ^ 500 := pow_le_pow_of_le_one (by norm_num) (by norm_num) hexp
      _ = 1 / 2 ^ 500 := one_div_pow _ _
  unfold dctFactor dctCos
  split
  · have h := hfine 1 (by omega) 1
    rwa [cosError, Nat.cast_one, mul_one, show (2 : ℝ) ^ (1 + 1) = 4 by norm_num] at h
  · have h := hfine d le_rfl ((2 * n + 1) * k)
    rw [cosError] at h
    push_cast at h
    rwa [← mul_assoc, pow_succ, mul_comm ((2 : ℝ) ^ d) 2] at h

/-- A sum over the coefficients with their indexes. -/
theorem sumOver_eq (f : Nat → F32 → Int) (k : Nat) (xs : List F32) :
    sumOver f k xs = ∑ i ∈ Finset.range xs.length, f (k + i) (xs.getD i 0) := by
  induction xs generalizing k with
  | nil => rfl
  | cons x rest ih =>
    rw [sumOver, ih, List.length_cons, Finset.sum_range_succ', add_comm]
    congr 1
    refine Finset.sum_congr rfl fun i _ => ?_
    rw [List.getD_cons_succ, Nat.add_assoc, Nat.add_comm 1 i]

section

variable {d : Nat} {xs : List F32} (hlen : xs.length = 2 ^ d) (n : Nat)
include hlen

theorem dctExact_eq : (dctExact d xs n : ℝ) = ∑ k ∈ Finset.range (2 ^ d), (fInt (xs.getD k 0) : ℝ) * dctFactor d k n := by
  rw [dctExact, sumOver_eq, hlen]
  push_cast
  simp only [Nat.zero_add]

theorem dctSize_eq :
    (dctSize d xs n : ℝ) = ∑ k ∈ Finset.range (2 ^ d), |(fInt (xs.getD k 0) : ℝ)| * |(dctFactor d k n : ℝ)| := by
  have hsum : sumOver (fun k x => ((fMag x * (dctFactor d k n).natAbs : Nat) : Int)) 0 xs
      = ((∑ k ∈ Finset.range (2 ^ d), fMag (xs.getD k 0) * (dctFactor d k n).natAbs : Nat) : Int) := by
    rw [sumOver_eq, hlen, Nat.cast_sum]
    simp only [Nat.zero_add]
  rw [dctSize, hsum, Int.toNat_natCast, Nat.cast_sum]
  refine Finset.sum_congr rfl fun k _ => ?_
  rw [Nat.cast_mul, ← fInt_natAbs, Nat.cast_natAbs, Nat.cast_natAbs, Int.cast_abs, Int.cast_abs]

end

/-- Factors near each other give sums near each other; `w` is the size of the weights. -/
theorem weighted_sum_error {N : Nat} {x w g f : Nat → ℝ} {δ : ℝ} (hw : ∀ k, |x k| = w k) (h : ∀ k, |g k - f k| ≤ δ) :
    |∑ k ∈ Finset.range N, x k * g k - ∑ k ∈ Finset.range N, x k * f k| ≤ (∑ k ∈ Finset.range N, w k) * δ := by
  rw [← Finset.sum_sub_distrib, Finset.sum_mul]
  refine (Finset.abs_sum_le_sum_abs _ _).trans (Finset.sum_le_sum fun k _ => ?_)
  rw [← mul_sub, abs_mul, hw]
  exact mul_le_mul_of_nonneg_left (h k) (hw k ▸ abs_nonneg _)

/-- The sum of R465: the DC term by its own factor, then the others. -/
theorem sum_dctCos (x : Nat → ℝ) (φ : ℝ → ℝ) (d n : Nat) :
    ∑ k ∈ Finset.range (2 ^ d), x k * φ (dctCos d n k) = x 0 * φ (Real.cos (Real.pi / 4))
      + ∑ k ∈ Finset.Ico 1 (2 ^ d), x k * φ (Real.cos (Real.pi * (2 * n + 1) * k / (2 * 2 ^ d))) := by
  rw [Finset.range_eq_Ico, Finset.sum_eq_sum_Ico_succ_bot (Nat.two_pow_pos d)]
  congr 1
  refine Finset.sum_congr rfl fun k hk => ?_
  have hk0 : k ≠ 0 := by have := (Finset.mem_Ico.mp hk).1; omega
  rw [dctCos, if_neg hk0]

/-- A fixed-point sum in the units of the reals. -/
theorem sum_scaled (x g : Nat → ℝ) (N bits : Nat) :
    (∑ k ∈ Finset.range N, x k * g k) / 2 ^ (149 + bits) = ∑ k ∈ Finset.range N, x k / 2 ^ 149 * (g k / 2 ^ bits) := by
  rw [Finset.sum_div]
  exact Finset.sum_congr rfl fun k _ => by rw [pow_add, mul_div_mul_comm]

/-- Settles O47: every factor is right to 500 bits (`dctFactor_error`), and so are the sums (`weighted_sum_error`). -/
theorem dctFixedPointIsTheRealDct : Obligations.DctFixedPointIsTheRealDct := by
  intro d xs n hd _ hlen _
  have hcos4 : |Real.cos (Real.pi / 4)| = Real.cos (Real.pi / 4) := abs_of_nonneg (by rw [Real.cos_pi_div_four]; positivity)
  have hscale : ∀ v : ℝ, |v / 2 ^ 149| = |v| / 2 ^ 149 := fun v => by
    rw [abs_div, abs_of_pos (by positivity : (0 : ℝ) < 2 ^ 149)]
  have hsize : ∀ k, |(dctFactor d k n : ℝ)| / 2 ^ cosBits d = |(dctFactor d k n : ℝ) / 2 ^ cosBits d| := fun k => by
    rw [abs_div, abs_of_pos (by positivity : (0 : ℝ) < 2 ^ cosBits d)]
  have hexactSum := sum_dctCos (fun k => (fInt (xs.getD k 0) : ℝ) / 2 ^ 149) (fun c => c) d n
  have hsizeSum := sum_dctCos (fun k => |(fInt (xs.getD k 0) : ℝ)| / 2 ^ 149) (fun c => |c|) d n
  simp only [hcos4] at hexactSum hsizeSum
  simp only [abs_mul, hscale]
  rw [← hexactSum, ← hsizeSum, dctExact_eq hlen, dctSize_eq hlen, sum_scaled, sum_scaled, div_eq_mul_one_div _ ((2 : ℝ) ^ 500)]
  simp only [hsize]
  exact ⟨weighted_sum_error (fun k => hscale _) (dctFactor_error hd n),
    weighted_sum_error (fun k => abs_of_nonneg (by positivity))
      fun k => (abs_abs_sub_abs_le_abs_sub _ _).trans (dctFactor_error hd n k)⟩

end Sys2Proof.Machine
end

section
/-! PROOFS. XF_IDCT (47_transform.md R441, R465): the nearest value to a sum that P-XF.2 bounds is finite and close to it, so
every output is. -/

namespace Sys2Proof.Machine

/-! ## A value close to a number -/

/-- Below the overflow bound the value just inside a number is finite, and as near as P-XF.2 asks or within a quantum of
2^-149. -/
theorem exists_close {v : Int} {u : Nat} (hv : v.natAbs < (2 ^ 25 - 1) * 2 ^ (252 + u)) :
    ∃ z : F32, fFinite z = true ∧ 2 ^ 16 * (fInt z * 2 ^ u - v).natAbs ≤ v.natAbs + 2 ^ (16 + u) := by
  obtain ⟨m, hm⟩ : ∃ m, m = v.natAbs := ⟨_, rfl⟩
  obtain ⟨b, hb, -⟩ := roundBits_encloses m u
  have hbits : b < infBits := by
    have := infBits_le_iff hb
    omega
  have hlt : b < 2 ^ 31 := hbits.trans (by decide)
  obtain ⟨hlo, hhi⟩ := hb
  refine ⟨fOfBits (decide (v < 0)) b, by rwa [fFinite_iff, fOfBits_bitsOf hlt], ?_⟩
  have hdist : (fInt (fOfBits (decide (v < 0)) b) * 2 ^ u - v).natAbs = m - patMag b * 2 ^ u := by
    have hsign := signed_distance (decide (v < 0)) (patMag b) (2 ^ u) v.natAbs
    rw [signed_natAbs_self] at hsign
    rw [fInt_fOfBits hlt, hsign, ← hm]
    have hcast : (patMag b : Int) * 2 ^ u = (patMag b * 2 ^ u : Nat) := by push_cast; rfl
    omega
  rw [patMag_succ, Nat.add_mul] at hhi
  rw [hdist, ← hm, Nat.pow_add]
  rcases patMag_quantum b with h1 | hrel
  · rw [h1] at hhi
    omega
  · have := Nat.mul_le_mul_right (2 ^ u) hrel
    rw [Nat.mul_assoc] at this
    omega

/-! ## The sums (R465, R441) -/

theorem sumOver_natAbs_le {f g : Nat → F32 → Int} (h : ∀ k x, (f k x).natAbs ≤ g k x) (k : Nat) (xs : List F32) :
    (sumOver f k xs).natAbs ≤ sumOver g k xs := by
  induction xs generalizing k with
  | nil => exact le_rfl
  | cons x rest ih =>
    have := ih (k + 1)
    have := h k x
    rw [sumOver, sumOver]
    omega

theorem sumOver_eq_zero {f : Nat → F32 → Int} {xs : List F32} (h : ∀ x ∈ xs, ∀ k, f k x = 0) (k : Nat) : sumOver f k xs = 0 := by
  induction xs generalizing k with
  | nil => rfl
  | cons x rest ih =>
    rw [sumOver, h x (List.mem_cons_self ..), ih fun y hy => h y (List.mem_cons_of_mem _ hy)]
    rfl

theorem dctExact_le_dctSize (d : Nat) (xs : List F32) (n : Nat) : (dctExact d xs n).natAbs ≤ dctSize d xs n := by
  have h := sumOver_natAbs_le (f := fun k x => fInt x * dctFactor d k n)
    (g := fun k x => ((fMag x * (dctFactor d k n).natAbs : Nat) : Int))
    (fun k x => by rw [Int.natAbs_mul, fInt_natAbs]) 0 xs
  unfold dctExact dctSize
  omega

theorem dctSum_zero {xs : List F32} (h : ∀ x ∈ xs, fZero x = true) (d n : Nat) : dctExact d xs n = 0 ∧ dctSize d xs n = 0 := by
  have hexact : dctExact d xs n = 0 := sumOver_eq_zero (fun x hx k => by rw [fInt_of_zero (h x hx), Int.zero_mul]) 0
  have hsize : dctSize d xs n = 0 := by
    rw [dctSize, sumOver_eq_zero fun x hx k => by rw [(fZero_iff_fMag x).mp (h x hx), Nat.zero_mul]; rfl]
    rfl
  exact ⟨hexact, hsize⟩

/-! ## The outputs -/

section

variable {d : Nat} {xs : List F32} {n : Nat} {y : F32}

theorem dctMeets_iff : dctMeets d xs n y = true ↔ fFinite y = true ∧ dctError d xs n y ≤ dctSize d xs n := by
  simp [dctMeets]

theorem dctClose_iff :
    dctClose d xs n y = true ↔ fFinite y = true ∧ dctError d xs n y ≤ dctSize d xs n + 2 ^ (16 + cosBits d) := by
  simp [dctClose]

theorem dctInRange_iff : dctInRange d xs = true ↔
    (∀ x ∈ xs, fFinite x = true) ∧ ∀ n < 2 ^ d, dctSize d xs n < 2 ^ (120 + 149 + cosBits d) := by
  simp [dctInRange]

theorem dctNearest_isRounded (d : Nat) (xs : List F32) (n : Nat) :
    isRounded (decide (dctExact d xs n < 0)) (dctExact d xs n) (cosBits d) (dctNearest d xs n) :=
  fRound_isRounded _ (signed_natAbs_self _).symm

/-- In the range of P-XF.2 no sum overflows. -/
theorem dctExact_lt (hrange : dctInRange d xs = true) (hn : n < 2 ^ d) :
    (dctExact d xs n).natAbs < (2 ^ 25 - 1) * 2 ^ (252 + cosBits d) := by
  have hsize := (dctInRange_iff.mp hrange).2 n hn
  have hbound : 2 ^ (120 + 149 + cosBits d) ≤ (2 ^ 25 - 1) * 2 ^ (252 + cosBits d) := by
    rw [show 120 + 149 + cosBits d = 17 + (252 + cosBits d) by omega, Nat.pow_add 2 17]
    exact Nat.mul_le_mul_right _ (by decide)
  exact (dctExact_le_dctSize d xs n).trans_lt (hsize.trans_le hbound)

/-- In the range of P-XF.2 the nearest value is finite, and no finite value has a smaller error. -/
theorem dctNearest_best (hrange : dctInRange d xs = true) (hn : n < 2 ^ d) :
    fFinite (dctNearest d xs n) = true
    ∧ ∀ z : F32, fFinite z = true → dctError d xs n (dctNearest d xs n) ≤ dctError d xs n z := by
  obtain ⟨-, hnearest⟩ := dctNearest_isRounded d xs n
  rw [if_neg (Nat.not_le.mpr (dctExact_lt hrange hn))] at hnearest
  exact ⟨hnearest.1, fun z hz => Nat.mul_le_mul_left _ (hnearest.2 z hz).1⟩

theorem dctNearest_close (hrange : dctInRange d xs = true) (hn : n < 2 ^ d) : dctClose d xs n (dctNearest d xs n) = true := by
  obtain ⟨hfinite, hbest⟩ := dctNearest_best hrange hn
  obtain ⟨z, hz, hclose⟩ := exists_close (dctExact_lt hrange hn)
  exact dctClose_iff.mpr ⟨hfinite, (hbest z hz).trans (hclose.trans (Nat.add_le_add_right (dctExact_le_dctSize d xs n) _))⟩

/-- Every output in the range of P-XF.2 is close, whatever IdctFP is. -/
theorem dctEntry_close (hrange : dctInRange d xs = true) (hn : n < 2 ^ d) : dctClose d xs n (dctEntry d xs n) = true := by
  rcases dctEntry_cases d xs n with hmeets | ⟨-, hclose | hnearest⟩
  · obtain ⟨hfinite, herr⟩ := dctMeets_iff.mp hmeets
    exact dctClose_iff.mpr ⟨hfinite, herr.trans (Nat.le_add_right _ _)⟩
  · exact hclose
  · rw [hnearest]
    exact dctNearest_close hrange hn

/-- An output meets the bound of P-XF.2 wherever a finite value does, for then the nearest one does. -/
theorem dctEntry_meets (hrange : dctInRange d xs = true) (hn : n < 2 ^ d) (hy : dctMeets d xs n y = true) :
    dctMeets d xs n (dctEntry d xs n) = true := by
  obtain ⟨hfinite, hbest⟩ := dctNearest_best hrange hn
  obtain ⟨hyfinite, hyerr⟩ := dctMeets_iff.mp hy
  have hnearest : dctMeets d xs n (dctNearest d xs n) = true := dctMeets_iff.mpr ⟨hfinite, (hbest y hyfinite).trans hyerr⟩
  rcases dctEntry_cases d xs n with hmeets | ⟨hnot, -⟩
  · exact hmeets
  · rw [hnearest] at hnot
    cases hnot

/-- A block of zeros is in the range of P-XF.2, and its outputs are zeros: the bound leaves no other value. -/
theorem dctEntry_zero (h : ∀ x ∈ xs, fZero x = true) (hn : n < 2 ^ d) :
    dctInRange d xs = true ∧ fZero (dctEntry d xs n) = true := by
  obtain ⟨hexact, hsize⟩ := dctSum_zero h d n
  have hrange : dctInRange d xs = true := dctInRange_iff.mpr
    ⟨fun x hx => fFinite_of_zero (h x hx), fun k _ => by rw [(dctSum_zero h d k).2]; exact Nat.two_pow_pos _⟩
  have hzero : dctMeets d xs n 0 = true := dctMeets_iff.mpr ⟨by decide, by
    rw [dctError, hexact, fInt_of_zero (x := 0) (by decide)]
    simp⟩
  obtain ⟨-, herr⟩ := dctMeets_iff.mp (dctEntry_meets hrange hn hzero)
  rw [dctError, hexact, hsize, Nat.le_zero, Nat.mul_eq_zero, Int.sub_zero, Int.natAbs_eq_zero, Int.mul_eq_zero] at herr
  refine ⟨hrange, fZero_of_fInt ?_⟩
  rcases herr with h0 | h0 | h0
  · cases h0
  · exact h0
  · exact absurd h0 (by positivity)

end

/-! ## The command -/

theorem exec_xfIdct (s : State) (d : BitVec 4) :
    exec (.xfIdct d) s = runCommand s (Instr.xfIdct d).cmdId (checkDegree d) (.ok (s.xfIdctBody d.toNat)) s := rfl

/-- XA after XF_IDCT, inside a block in the range of P-XF.2. -/
theorem xfIdctBody_get {s : State} {degree i : Nat} (hrange : dctInRange degree (s.xaBlock (2 ^ degree)) = true)
    (hi : i < 2 ^ degree) : (s.xfIdctBody degree).xf.xa.get i = dctEntry degree (s.xaBlock (2 ^ degree)) i := by
  have hget : (s.xfIdctBody degree).xf.xa.get i = s.idctEntry degree _ _ i := setBlock_get _ _ hi
  rw [hget, hrange]
  exact if_pos rfl

theorem xfIdctBody_zero {s : State} {degree : Nat} (hz : ZeroBlock s.xf.xa (2 ^ degree)) :
    ZeroBlock (s.xfIdctBody degree).xf.xa (2 ^ degree) := by
  intro i hi
  have hxs : ∀ x ∈ s.xaBlock (2 ^ degree), fZero x = true := by
    intro x hx
    obtain ⟨k, hk, rfl⟩ := List.mem_map.mp hx
    exact hz k (List.mem_range.mp hk)
  obtain ⟨hrange, hentry⟩ := dctEntry_zero hxs hi
  rwa [xfIdctBody_get hrange hi]

/-- Settles O52: an output in the range of P-XF.2 is close (`dctEntry_close`), and meets the bound where a value does
(`dctEntry_meets`). -/
theorem xfIdctIsAccurate : Obligations.XfIdctIsAccurate := by
  intro s d
  refine ⟨refused_of_degree_only (exec_xfIdct s d), fun hd => ?_⟩
  refine ⟨_, exec_of_degree (exec_xfIdct s d) hd, rfl, fun i hi => setBlock_get_out _ _ hi, ?_,
    xfIdctBody_zero⟩
  rintro xs rfl hrange i hi
  obtain ⟨hfinite, hclose⟩ := dctClose_iff.mp (dctEntry_close hrange hi)
  rw [State.complete_xf, xfIdctBody_get hrange hi]
  refine ⟨hfinite, fun ⟨y, hyfinite, hyerr⟩ => ?_, hclose⟩
  exact (dctMeets_iff.mp (dctEntry_meets hrange hi (dctMeets_iff.mpr ⟨hyfinite, hyerr⟩))).2

end Sys2Proof.Machine
end

section
/-! PROOFS. XF_STORE16 (47_transform.md R470): its checks, the rounding to 16 bits, and the samples in BUF where a later one lies
over an earlier one. -/

namespace Sys2Proof.Machine

/-! ## The checks -/

theorem checkStride_ok {stride : Word} (h : stride ≠ 0) : checkStride stride = .ok () := require_ok.mpr (by simpa using h)

theorem checkStride_error : checkStride 0 = .error ⟨.badOperand, 0⟩ := rfl

section

variable {s : State} {addr stride : Word} {n : Nat}

/-- The last sample's address as R470 writes it. -/
theorem sampleAt_last (addr stride : Word) (hn : n ≠ 0) :
    sampleAt addr stride (n - 1) = addr.toNat + stride.toInt * ((n : Int) - 1) := by
  rw [sampleAt, Nat.cast_pred (Nat.pos_of_ne_zero hn)]

theorem checkSamples_ok (hn : n ≠ 0) (hlo : 0 ≤ min (addr.toNat : Int) (addr.toNat + stride.toInt * ((n : Int) - 1)))
    (hhi : max (addr.toNat : Int) (addr.toNat + stride.toInt * ((n : Int) - 1)) + 2 ≤ s.cfg.bufSize) :
    s.checkSamples addr stride n = .ok () := by
  rw [← sampleAt_last addr stride hn] at hlo hhi
  exact require_ok.mpr (by rw [decide_eq_true hlo, decide_eq_true hhi]; rfl)

theorem checkSamples_error (hn : n ≠ 0) (h : min (addr.toNat : Int) (addr.toNat + stride.toInt * ((n : Int) - 1)) < 0
      ∨ (s.cfg.bufSize : Int) < max (addr.toNat : Int) (addr.toNat + stride.toInt * ((n : Int) - 1)) + 2) :
    s.checkSamples addr stride n = .error ⟨.outOfBounds, addr⟩ := by
  rw [← sampleAt_last addr stride hn] at h
  refine require_error.mpr ⟨?_, rfl⟩
  rw [Bool.and_eq_false_iff, decide_eq_false_iff_not, decide_eq_false_iff_not]
  exact h.imp Int.not_le.mpr Int.not_le.mpr

end

theorem firstNaN_none {xa : Store 32} {n i : Nat} (h : ∀ k < n, fNaN (xa.get (i + k)) = false) : firstNaN xa n i = none := by
  induction n generalizing i with
  | zero => rfl
  | succ n ih =>
    have hrest : ∀ k < n, fNaN (xa.get (i + 1 + k)) = false := fun k hk => by
      rw [Nat.add_right_comm]
      exact h (k + 1) (by omega)
    have hfirst : fNaN (xa.get i) = false := h 0 (by omega)
    rw [firstNaN, hfirst]
    exact ih hrest

/-- The lowest index that holds NaN. -/
theorem firstNaN_some {xa : Store 32} {n k : Nat} (hk : k < n) (i : Nat) (hnan : fNaN (xa.get (i + k)) = true)
    (hlow : ∀ j < k, fNaN (xa.get (i + j)) = false) : firstNaN xa n i = some (i + k) := by
  induction n generalizing i k with
  | zero => exact absurd hk (Nat.not_lt_zero k)
  | succ n ih =>
    cases k with
    | zero =>
      rw [firstNaN]
      exact if_pos hnan
    | succ k =>
      have hfirst : fNaN (xa.get i) = false := hlow 0 (by omega)
      rw [← Nat.add_assoc, Nat.add_right_comm] at hnan ⊢
      rw [firstNaN, hfirst]
      refine ih (by omega) (i + 1) hnan fun j hj => ?_
      rw [Nat.add_right_comm]
      exact hlow (j + 1) (by omega)

section

variable {s : State} {n : Nat}

theorem checkNaN_ok (h : ∀ i < n, fNaN (s.xf.xa.get i) = false) : s.checkNaN n = .ok () := by
  rw [State.checkNaN, firstNaN_none fun k hk => by rw [Nat.zero_add]; exact h k hk]

theorem checkNaN_error {i : Nat} (hi : i < n) (hnan : fNaN (s.xf.xa.get i) = true)
    (hlow : ∀ j < i, fNaN (s.xf.xa.get j) = false) : s.checkNaN n = .error ⟨.formatError, wordOf i⟩ := by
  rw [State.checkNaN, firstNaN_some hi 0 (by rwa [Nat.zero_add]) fun j hj => by rw [Nat.zero_add]; exact hlow j hj, Nat.zero_add]
  rfl

end

/-! ## `Round16` -/

/-- `Round16` of a magnitude that rounds to `r`, with its sign. -/
theorem clamp16_toInt (neg : Bool) (r : Nat) :
    (if neg then BitVec.ofInt 16 (- (min r 32768 : Nat)) else BitVec.ofNat 16 (min r 32767)).toInt
      = max (-32768) (min 32767 ((if neg then -1 else 1) * (r : Int))) := by
  cases neg with
  | true =>
    have hmin : (-(min r 32768 : Nat) : Int) = max (-32768) (min 32767 (-1 * (r : Int))) := by omega
    rw [if_pos rfl, if_pos rfl, BitVec.toInt_ofInt, Int.bmod_eq_of_le (by omega) (by omega), hmin]
  | false =>
    have hmin : ((min r 32767 : Nat) : Int) = max (-32768) (min 32767 (1 * (r : Int))) := by omega
    rw [if_neg (by decide), if_neg (by decide), BitVec.toInt_ofNat', Int.bmod_eq_of_le (by omega) (by omega), hmin]

theorem round16_toInt {v : F32} (h : fFinite v = true) : (round16 v).toInt
    = max (-32768) (min 32767 ((if v.msb then -1 else 1) * (((fMag v + 2 ^ 148) / 2 ^ 149 : Nat) : Int))) := by
  rw [← clamp16_toInt, round16, if_pos h]

/-! ## The samples in BUF -/

/-- Byte `j` of sample `k` is there in the end unless a later sample lies over it. -/
theorem storeSamples_get (xa : Store 32) (addr stride : Word) {n k j : Nat} (hk : k < n) (hj : j < 2) (i : Nat) (buf : Store 8)
    (hlast : ¬ SampleBytes addr stride (i + k + 1) (n - (k + 1)) ((sampleAt addr stride (i + k)).toNat + j)) :
    (storeSamples none xa addr stride n i buf).get ((sampleAt addr stride (i + k)).toNat + j)
      = (round16 (xa.get (i + k))).extractLsb' (8 * j) 8 := by
  induction n generalizing i k buf with
  | zero => exact absurd hk (Nat.not_lt_zero k)
  | succ n ih =>
    rw [storeSamples]
    cases k with
    | zero =>
      rw [(storeSamples_writtenIn none xa addr stride n (i + 1) _).get_out hlast, Nat.add_zero, memWriteLE_get,
        if_pos (by omega), Nat.add_sub_cancel_left, leByte_toNat]
    | succ k =>
      rw [Nat.add_sub_add_right, ← Nat.add_assoc, Nat.add_right_comm i k 1] at hlast
      rw [← Nat.add_assoc, Nat.add_right_comm i k 1]
      exact ih (by omega) (i + 1) _ hlast

/-! ## The command -/

theorem exec_xfStore16 (s : State) (d : BitVec 4) :
    exec (.xfStore16 d) s = runCommand s (Instr.xfStore16 d).cmdId
      (checkDegree d >>= fun _ => checkStride (s.arg 1) >>= fun _ =>
        s.checkSamples (s.arg 0) (s.arg 1) (2 ^ d.toNat) >>= fun _ => s.checkNaN (2 ^ d.toNat))
      (.ok (s.xfStore16Body (2 ^ d.toNat) (s.arg 0) (s.arg 1))) s := rfl

/-- Settles O53: the checks one by one, the samples (`storeSamples_get`), and the rounding (`round16_toInt`). -/
theorem xfStore16RoundsAndStores : Obligations.XfStore16RoundsAndStores := by
  rintro s d n rfl lo hi rfl rfl
  have hn : 2 ^ d.toNat ≠ 0 := (Nat.two_pow_pos _).ne'
  refine ⟨refused_of_degree (exec_xfStore16 s d), fun hd hst => ?stride, fun hd hst hspan => ?span, fun hd hst hlo hhi =>
    ⟨fun i hi hnan hlow => ?nan, fun hnum ht => ?store⟩, fun v => round16_toInt⟩
  case stride =>
    exact refused_of_check ⟨.badOperand, 0⟩ (exec_xfStore16 s d) (by rw [checkDegree_ok hd, hst, checkStride_error]; rfl)
  case span =>
    refine refused_of_check ⟨.outOfBounds, s.arg 0⟩ (exec_xfStore16 s d) ?_
    rw [checkDegree_ok hd, checkStride_ok hst, checkSamples_error hn hspan]
    rfl
  case nan =>
    refine refused_of_check ⟨.formatError, wordOf i⟩ (exec_xfStore16 s d) ?_
    rw [checkDegree_ok hd, checkStride_ok hst, checkSamples_ok hn hlo hhi, checkNaN_error hi hnan hlow]
    rfl
  case store =>
    have hsamples : s.checkSamples (s.arg 0) (s.arg 1) (2 ^ d.toNat) = .ok () := checkSamples_ok hn hlo hhi
    have hnonneg := checkSamples_nonneg hsamples
    have hchecks : (checkDegree d >>= fun _ => checkStride (s.arg 1) >>= fun _ =>
        s.checkSamples (s.arg 0) (s.arg 1) (2 ^ d.toNat) >>= fun _ => s.checkNaN (2 ^ d.toNat)) = .ok () := by
      rw [checkDegree_ok hd, checkStride_ok hst, hsamples, checkNaN_ok hnum]
      rfl
    refine ⟨_, (exec_xfStore16 s d).trans (runCommand_complete hchecks rfl), rfl, fun i hi a ha k hk hlater => ?_⟩
    have haddr : (sampleAt (s.arg 0) (s.arg 1) (0 + i)).toNat = a := by
      rw [Nat.zero_add, sampleAt, ← ha, Int.toNat_natCast]
    have hget := storeSamples_get s.xf.xa (s.arg 0) (s.arg 1) hi hk 0 s.buf (by
      rw [haddr]
      rintro ⟨j, hij, hj, hlow, hhigh⟩
      have hpos := hnonneg j (by omega)
      obtain ⟨h0, h1⟩ := hlater j (by omega) (by omega)
      unfold sampleAt at hlow hhigh hpos
      omega)
    rw [haddr, Nat.zero_add] at hget
    rw [State.complete_buf, State.xfStore16Body, taint_of_untainted ht]
    exact hget

end Sys2Proof.Machine
end

section
/-! PROOFS. XF_RESTORE (47_transform.md R475, R476): it is its seven stages, and zero residuals with a zero carry stay zero
through all of them. -/

namespace Sys2Proof.Machine

/-! ## The command -/

/-- The checks of XF_RESTORE in their order (R475). -/
def State.checkXfRestore (s : State) (d : BitVec 4) : Run Unit :=
  checkDegree d >>= fun _ => checkStride (s.arg 4) >>= fun _ =>
    s.checkDirect (s.arg 0) (4 * 2 ^ d.toNat) >>= fun _ => s.checkSamples (s.arg 3) (s.arg 4) (2 ^ d.toNat)

/-- The body of XF_RESTORE: the stages before the store, the test for NaN, the store. -/
def State.xfRestoreBody (s : State) (d : BitVec 4) : Run State :=
  (s.xfRestoreBlock d).checkNaN (2 ^ d.toNat) >>= fun _ =>
    .ok ((s.xfRestoreBlock d).xfStore16Body (2 ^ d.toNat) (s.arg 3) (s.arg 4))

theorem exec_xfRestore (s : State) (d : BitVec 4) :
    exec (.xfRestore d) s = runCommand s (Instr.xfRestore d).cmdId (s.checkXfRestore d) (s.xfRestoreBody d)
      (s.loseXf (2 ^ d.toNat)).endDraws.endDraws := rfl

theorem checkXfRestore_ok {s : State} {d : BitVec 4} (hd : degreeOk d = true) (hst : s.arg 4 ≠ 0)
    (hin : (s.arg 0).toNat + 4 * 2 ^ d.toNat ≤ s.cfg.bufSize)
    (hout : s.checkSamples (s.arg 3) (s.arg 4) (2 ^ d.toNat) = .ok ()) : s.checkXfRestore d = .ok () := by
  have hdirect : s.checkDirect (s.arg 0) (4 * 2 ^ d.toNat) = .ok () := require_ok.mpr (decide_eq_true hin)
  rw [State.checkXfRestore, checkDegree_ok hd, checkStride_ok hst, hdirect, hout]
  rfl

/-! ## The stages one by one -/

theorem complete_of_untainted {u : State} (ht : u.tainted = false) : u.complete = { u with busy := false, done := true } := by
  simp [State.complete, ht]

section

variable {u : State} {d : BitVec 4} (hd : degreeOk d = true) (ht : u.tainted = false)
include hd ht

/-! The completion of a stage leaves nothing that the next one reads. -/

theorem exec_xfIquant_next : exec (.xfIquant d) u.complete = .next (u.xfIquantBody d.toNat (u.arg 1) (u.arg 2)).complete := by
  rw [complete_of_untainted ht]
  exact exec_of_degree (exec_xfIquant _ d) hd

theorem exec_xfGivens_next : exec (.xfGivens d) u.complete = .next (u.xfGivensBody d.toNat).complete := by
  rw [complete_of_untainted ht]
  exact exec_of_degree (exec_xfGivens _ d) hd

theorem exec_xfIplot_next : exec (.xfIplot d) u.complete = .next (u.xfIplotBody (2 ^ d.toNat)).complete := by
  rw [complete_of_untainted ht]
  exact exec_of_degree (exec_xfIplot _ d) hd

theorem exec_xfIlot_next : exec (.xfIlot d) u.complete = .next (u.xfIlotBody (2 ^ d.toNat)).complete := by
  rw [complete_of_untainted ht]
  exact exec_of_degree (exec_xfIlot _ d) hd

theorem exec_xfIdct_next : exec (.xfIdct d) u.complete = .next (u.xfIdctBody d.toNat).complete := by
  rw [complete_of_untainted ht]
  exact exec_of_degree (exec_xfIdct _ d) hd

end

/-! The state after each stage of XF_RESTORE before the store (R475). -/

section

variable (s : State) (d : BitVec 4)

def State.restoreLoadq : State := s.xfLoadqBody (2 ^ d.toNat) (s.arg 0)
def State.restoreIquant : State := (s.restoreLoadq d).xfIquantBody d.toNat (s.arg 1) (s.arg 2)
def State.restoreGivens : State := (s.restoreIquant d).xfGivensBody d.toNat
def State.restoreIplot : State := (s.restoreGivens d).xfIplotBody (2 ^ d.toNat)
def State.restoreIlot : State := (s.restoreIplot d).xfIlotBody (2 ^ d.toNat)

theorem xfRestoreBlock_eq : s.xfRestoreBlock d = (s.restoreIlot d).xfIdctBody d.toNat := rfl

theorem State.restoreLoadq_tainted : (s.restoreLoadq d).tainted = s.tainted := rfl
theorem State.restoreIquant_tainted : (s.restoreIquant d).tainted = s.tainted := s.restoreLoadq_tainted d
theorem State.restoreGivens_tainted : (s.restoreGivens d).tainted = s.tainted := s.restoreIquant_tainted d
theorem State.restoreIplot_tainted : (s.restoreIplot d).tainted = s.tainted := s.restoreGivens_tainted d
theorem State.restoreIlot_tainted : (s.restoreIlot d).tainted = s.tainted := s.restoreIplot_tainted d

/-- XF_GIVENS and XF_IDCT draw, the other stages do not. -/
theorem State.restoreGivens_draws : (s.restoreGivens d).draws = s.draws + drawsPerEvent := rfl
theorem State.restoreIlot_draws : (s.restoreIlot d).draws = s.draws + drawsPerEvent := s.restoreGivens_draws d
theorem xfRestoreBlock_draws : (s.xfRestoreBlock d).draws = s.draws + drawsPerEvent + drawsPerEvent :=
  congrArg (· + drawsPerEvent) (s.restoreIlot_draws d)

end

/-- The commands before the store, one after another, lead to the completed block of XF_RESTORE. -/
theorem stages_run {s : State} {d : BitVec 4} (hd : degreeOk d = true) (ht : s.tainted = false)
    (hin : (s.arg 0).toNat + 4 * 2 ^ d.toNat ≤ s.cfg.bufSize) :
    exec (.xfLoadq d) s = .next (s.restoreLoadq d).complete
    ∧ exec (.xfIquant d) (s.restoreLoadq d).complete = .next (s.restoreIquant d).complete
    ∧ exec (.xfGivens d) (s.restoreIquant d).complete = .next (s.restoreGivens d).complete
    ∧ exec (.xfIplot d) (s.restoreGivens d).complete = .next (s.restoreIplot d).complete
    ∧ exec (.xfIlot d) (s.restoreIplot d).complete = .next (s.restoreIlot d).complete
    ∧ exec (.xfIdct d) (s.restoreIlot d).complete = .next (s.xfRestoreBlock d).complete := by
  refine ⟨exec_xfLoadq_ok hd hin, ?_, ?_, ?_, ?_, ?_⟩
  · exact exec_xfIquant_next hd ((s.restoreLoadq_tainted d).trans ht)
  · exact exec_xfGivens_next hd ((s.restoreIquant_tainted d).trans ht)
  · exact exec_xfIplot_next hd ((s.restoreGivens_tainted d).trans ht)
  · exact exec_xfIlot_next hd ((s.restoreIplot_tainted d).trans ht)
  · exact exec_xfIdct_next hd ((s.restoreIlot_tainted d).trans ht)

/-! ## The store -/

/-- A state with the operands of XF_STORE16. -/
def State.storeAt (u : State) (addr stride : Word) : State := { u with args := (u.args.set 0 addr).set 1 stride }

theorem State.storeAt_arg (u : State) (addr stride : Word) :
    (u.storeAt addr stride).arg 0 = addr ∧ (u.storeAt addr stride).arg 1 = stride := by
  simp [State.storeAt, State.arg]

theorem checkSamples_congr {s u : State} (h : u.cfg = s.cfg) (addr stride : Word) (n : Nat) :
    u.checkSamples addr stride n = s.checkSamples addr stride n := by
  rw [State.checkSamples, h, State.checkSamples]

theorem checkNaN_congr {s u : State} (h : u.xf = s.xf) (n : Nat) : u.checkNaN n = s.checkNaN n := by
  rw [State.checkNaN, h, State.checkNaN]

section

variable {s u : State} {d : BitVec 4} {addr stride : Word} (hu : s.XfOnly u) (hd : degreeOk d = true) (hst : stride ≠ 0)
  (hout : s.checkSamples addr stride (2 ^ d.toNat) = .ok ())
include hu hd hst hout

/-- XF_STORE16 behind the stages: its other checks pass, and the test for NaN decides. -/
theorem exec_storeAt : exec (.xfStore16 d) (u.complete.storeAt addr stride)
    = runCommand (u.complete.storeAt addr stride) ⟨9, 6⟩ (u.checkNaN (2 ^ d.toNat))
      (.ok ((u.complete.storeAt addr stride).xfStore16Body (2 ^ d.toNat) addr stride)) (u.complete.storeAt addr stride) := by
  obtain ⟨haddr, hstride⟩ := u.complete.storeAt_arg addr stride
  have hcfg : (u.complete.storeAt addr stride).cfg = s.cfg := by obtain ⟨x, k, rfl⟩ := hu; rfl
  have hnan : (u.complete.storeAt addr stride).checkNaN (2 ^ d.toNat) = u.checkNaN (2 ^ d.toNat) := checkNaN_congr rfl _
  rw [exec_xfStore16, haddr, hstride, checkDegree_ok hd, checkStride_ok hst, checkSamples_congr hcfg, hout, hnan]
  rfl

end

/-- XF_RESTORE ends as R512 says, and changes unit XF, BUF and the draw counter only. -/
theorem restore_finished {s u : State} (hu : s.XfOnly u) (ht : s.tainted = false) (n : Nat) (addr stride : Word) {t : State}
    (h : t = (u.xfStore16Body n addr stride).complete) :
    t = { s with xf := t.xf, buf := t.buf, draws := t.draws }.finished := by
  obtain ⟨x, k, rfl⟩ := hu
  subst h
  simp [State.complete, State.xfStore16Body, State.finished, ht]

/-- Without a NaN the store command leaves what XF_RESTORE leaves. -/
theorem store_completes {s u : State} (hu : s.XfOnly u) (ht : s.tainted = false) (n : Nat) (addr stride : Word) {t t' : State}
    (h7 : t = ((u.complete.storeAt addr stride).xfStore16Body n addr stride).complete)
    (h : t' = (u.xfStore16Body n addr stride).complete) :
    t.err = s.err ∧ t.xf = t'.xf ∧ t.buf = t'.buf ∧ t.draws = t'.draws := by
  obtain ⟨x, k, rfl⟩ := hu
  subst h7 h
  simp [State.complete, State.storeAt, State.xfStore16Body, State.taint, ht]

/-- With a NaN both abort with its index, and the same draws behind them. -/
theorem store_aborts {s u after t t' : State} (hu : s.XfOnly u) (ht : s.tainted = false) (addr stride : Word) {r : Raise}
    (hr : r.err = .formatError) (hafter : after.tainted = false ∧ after.buf = s.buf ∧ after.draws = u.draws)
    (h7 : t = (u.complete.storeAt addr stride).abort ⟨9, 6⟩ r) (h : t' = after.abort ⟨9, 10⟩ r) :
    t.err = true ∧ t.errcode = 0x6901 ∧ t'.err = true ∧ t'.errcode = 0xA901 ∧ t'.errinfo = t.errinfo ∧ t'.buf = s.buf
    ∧ t'.draws = t.draws := by
  obtain ⟨x, k, rfl⟩ := hu
  obtain ⟨hataint, hbuf, hdraws⟩ := hafter
  subst h7 h
  refine ⟨rfl, ?_, rfl, ?_, rfl, hbuf, ?_⟩
  · rw [State.abort_errcode, hr]
    decide
  · rw [State.abort_errcode, hr]
    decide
  · simp [State.storeAt, ht, hataint, hdraws]

theorem checkNaN_raises {s : State} {n : Nat} {r : Raise} (h : s.checkNaN n = .error r) : r.err = .formatError := by
  unfold State.checkNaN at h
  split at h
  · cases h
  · cases h
    rfl

/-- Settles O55: the stages lead to the block of XF_RESTORE (`stages_run`), and the test for NaN decides both ends alike. -/
theorem xfRestoreIsItsStages : Obligations.XfRestoreIsItsStages := by
  rintro s d n rfl lo hi rfl rfl
  have hn : 2 ^ d.toNat ≠ 0 := (Nat.two_pow_pos _).ne'
  refine ⟨refused_of_degree (exec_xfRestore s d), fun hd hst => ?stride, fun hd hst hin => ?input,
    fun hd hst hin hout => ?output, fun hd herr ht hst hin hlo hhi => ?runs⟩
  case stride =>
    refine refused_of_check ⟨.badOperand, 0⟩ (exec_xfRestore s d) ?_
    rw [State.checkXfRestore, checkDegree_ok hd, hst, checkStride_error]
    rfl
  case input =>
    have hdirect : s.checkDirect (s.arg 0) (4 * 2 ^ d.toNat) = .error ⟨.outOfBounds, s.arg 0⟩ :=
      require_error.mpr ⟨decide_eq_false (Nat.not_le.mpr hin), rfl⟩
    refine refused_of_check ⟨.outOfBounds, s.arg 0⟩ (exec_xfRestore s d) ?_
    rw [State.checkXfRestore, checkDegree_ok hd, checkStride_ok hst, hdirect]
    rfl
  case output =>
    have hdirect : s.checkDirect (s.arg 0) (4 * 2 ^ d.toNat) = .ok () := require_ok.mpr (decide_eq_true hin)
    refine refused_of_check ⟨.outOfBounds, s.arg 3⟩ (exec_xfRestore s d) ?_
    rw [State.checkXfRestore, checkDegree_ok hd, checkStride_ok hst, hdirect, checkSamples_error hn hout]
    rfl
  case runs =>
    obtain ⟨h1, h2, h3, h4, h5, h6⟩ := stages_run hd ht hin
    have hsamples : s.checkSamples (s.arg 3) (s.arg 4) (2 ^ d.toNat) = .ok () := checkSamples_ok hn hlo hhi
    have hchecks := checkXfRestore_ok hd hst hin hsamples
    have hblock := xfRestoreBlock_xfOnly d s
    have hstore := exec_storeAt hblock hd hst hsamples
    have hrestore := exec_xfRestore s d
    rw [State.xfRestoreBody] at hrestore
    cases hnan : (s.xfRestoreBlock d).checkNaN (2 ^ d.toNat) with
    | ok a =>
      rw [hnan] at hrestore
      refine ⟨_, _, _, _, _, _, _, _, h1, h2, h3, h4, h5, h6, hstore.trans (runCommand_complete hnan rfl),
        hrestore.trans (runCommand_complete hchecks rfl), ?_⟩
      obtain ⟨hok, hxf, hbuf, hdraws⟩ := store_completes hblock ht (2 ^ d.toNat) (s.arg 3) (s.arg 4) rfl rfl
      rw [if_neg (ne_true_of_eq_false (hok.trans herr)), hxf, hbuf, hdraws]
      exact restore_finished hblock ht _ _ _ rfl
    | error r =>
      rw [hnan] at hrestore
      refine ⟨_, _, _, _, _, _, _, _, h1, h2, h3, h4, h5, h6, hstore.trans (runCommand_refuse hnan),
        hrestore.trans (runCommand_fail hchecks rfl), ?_⟩
      obtain ⟨hfail, hend⟩ := store_aborts (after := (s.loseXf (2 ^ d.toNat)).endDraws.endDraws) hblock ht (s.arg 3) (s.arg 4)
        (checkNaN_raises hnan) ⟨by simp [ht], by simp, by simp [xfRestoreBlock_draws]⟩ rfl rfl
      rw [if_pos hfail]
      exact hend

/-! ## A block of zeros (R475) -/

/-- Four zero bytes are the value 0. -/
theorem wordAt_zero {buf : Store 8} {a : Nat} (h : ∀ j < 4, buf.get (a + j) = 0) : wordAt buf a = 0 := by
  have hbytes : memRead buf a 4 = [0, 0, 0, 0] := by
    simp only [memRead, List.range_succ, List.range_zero, List.nil_append, List.cons_append, List.map_cons, List.map_nil,
      h 0 (by decide), h 1 (by decide), h 2 (by decide), h 3 (by decide)]
  rw [wordAt, hbytes]
  rfl

section

variable {s : State} {d : BitVec 4}

/-- Each stage keeps zero residuals with a zero carry zero, whatever the OPEN parameters are. -/
theorem restoreIquant_zero (hin : ∀ a, (s.arg 0).toNat ≤ a → a < (s.arg 0).toNat + 4 * 2 ^ d.toNat → s.buf.get a = 0) :
    ZeroBlock (s.restoreIquant d).xf.xa (2 ^ d.toNat) := by
  refine ZeroBlock.setBlock _ fun i hi => ?_
  have hq : (s.restoreLoadq d).xf.xq.get i = wordAt s.buf ((s.arg 0).toNat + 4 * i) := setBlock_get _ _ hi
  rw [hq, wordAt_zero fun j hj => hin _ (by omega) (by omega)]
  exact iquant_zero ..

theorem restoreIplot_zero (hd : degreeOk d = true) (h : ZeroBlock (s.restoreIquant d).xf.xa (2 ^ d.toNat)) :
    ZeroBlock (s.restoreIplot d).xf.xa (2 ^ d.toNat) :=
  have h3 : ZeroBlock (s.restoreGivens d).xf.xa (2 ^ d.toNat) := h.rotations
  ZeroBlock.setBlock _ fun _ => ilotEntry_zero h3 h3 (blockSize_even hd)

theorem restoreIlot_zero (hd : degreeOk d = true) (hc : ZeroBlock s.xf.xc (2 ^ d.toNat))
    (h : ZeroBlock (s.restoreIplot d).xf.xa (2 ^ d.toNat)) :
    ZeroBlock (s.restoreIlot d).xf.xa (2 ^ d.toNat) ∧ ZeroBlock (s.restoreIlot d).xf.xc (2 ^ d.toNat) :=
  have hcarry : ZeroBlock (s.restoreIplot d).xf.xc (2 ^ d.toNat) := hc
  ⟨ZeroBlock.setBlock _ fun _ => ilotEntry_zero h hcarry (blockSize_even hd), ZeroBlock.setBlock _ h⟩

theorem xfIdctBody_xc (s : State) (degree : Nat) : (s.xfIdctBody degree).xf.xc = s.xf.xc := rfl

/-- After the stages of XF_RESTORE the block and the carry are zero. -/
theorem xfRestoreBlock_zero (hd : degreeOk d = true)
    (hin : ∀ a, (s.arg 0).toNat ≤ a → a < (s.arg 0).toNat + 4 * 2 ^ d.toNat → s.buf.get a = 0)
    (hc : ZeroBlock s.xf.xc (2 ^ d.toNat)) :
    ZeroBlock (s.xfRestoreBlock d).xf.xa (2 ^ d.toNat) ∧ ZeroBlock (s.xfRestoreBlock d).xf.xc (2 ^ d.toNat) := by
  obtain ⟨hblock, hcarry⟩ := restoreIlot_zero hd hc (restoreIplot_zero hd (restoreIquant_zero hin))
  rw [xfRestoreBlock_eq, xfIdctBody_xc]
  exact ⟨xfIdctBody_zero hblock, hcarry⟩

end

theorem fNaN_of_zero {x : F32} (h : fZero x = true) : fNaN x = false := fNaN_of_finite (fFinite_of_zero h)

theorem round16_zero {x : F32} (h : fZero x = true) : round16 x = 0 := by
  refine BitVec.eq_of_toInt_eq ?_
  rw [round16_toInt (fFinite_of_zero h), (fZero_iff_fMag x).mp h]
  cases x.msb <;> decide

/-- Stored zeros are zero bytes. -/
theorem storeSamples_zero {xa : Store 32} {addr stride : Word} {n i a : Nat} {buf : Store 8}
    (hz : ∀ k < n, fZero (xa.get (i + k)) = true) (h : buf.get a = 0 ∨ SampleBytes addr stride i n a) :
    (storeSamples none xa addr stride n i buf).get a = 0 := by
  induction n generalizing i buf with
  | zero =>
    rcases h with h | ⟨k, hlo, hhi, -⟩
    · exact h
    · omega
  | succ n ih =>
    have hr : round16 (xa.get i) = 0 := round16_zero (hz 0 (by omega))
    rw [storeSamples, hr]
    refine ih (fun k hk => by rw [Nat.add_right_comm]; exact hz (k + 1) (by omega)) ?_
    have hfirst : (memWriteLE none buf (sampleAt addr stride i).toNat 2 (0 : BitVec 16).toNat).get a
        = if (sampleAt addr stride i).toNat ≤ a ∧ a < (sampleAt addr stride i).toNat + 2 then 0 else buf.get a := by
      rw [memWriteLE_get, show leByte (0 : BitVec 16).toNat _ = 0 by simp [leByte]]
    rw [hfirst]
    split
    · exact .inl rfl
    · next hout =>
      refine h.imp id fun ⟨k, hlo, hhi, hin⟩ => ⟨k, ?_, by omega, hin⟩
      by_contra hk
      obtain rfl : k = i := by omega
      exact hout hin

/-- Settles O54: the stages keep the block zero (`xfRestoreBlock_zero`), and the store writes zero bytes (`storeSamples_zero`). -/
theorem xfRestoreOfZeroBlock : Obligations.XfRestoreOfZeroBlock := by
  rintro s d n rfl hd ht hst hin hlo hhi hbuf hcarry
  have hsamples : s.checkSamples (s.arg 3) (s.arg 4) (2 ^ d.toNat) = .ok () :=
    checkSamples_ok (Nat.two_pow_pos _).ne' hlo hhi
  obtain ⟨hblock, hcarry'⟩ := xfRestoreBlock_zero hd hbuf hcarry
  have hbody : s.xfRestoreBody d = .ok ((s.xfRestoreBlock d).xfStore16Body (2 ^ d.toNat) (s.arg 3) (s.arg 4)) := by
    rw [State.xfRestoreBody, checkNaN_ok fun i hi => fNaN_of_zero (hblock i hi)]
    rfl
  have hexec := (exec_xfRestore s d).trans (runCommand_complete (checkXfRestore_ok hd hst hin hsamples) hbody)
  refine ⟨_, hexec, ?state, fun i hi a ha => ?inside, fun a ha => ?outside, hcarry'⟩
  case state => exact restore_finished (xfRestoreBlock_xfOnly d s) ht _ _ _ rfl
  case inside =>
    have htaint : (s.xfRestoreBlock d).taint = none := taint_of_untainted ((s.restoreIlot_tainted d).trans ht)
    have haddr : (sampleAt (s.arg 3) (s.arg 4) i).toNat = a := by rw [sampleAt, ← ha, Int.toNat_natCast]
    have hbyte : ∀ j < 2, SampleBytes (s.arg 3) (s.arg 4) 0 (2 ^ d.toNat) (a + j) := fun j hj =>
      ⟨i, Nat.zero_le i, by omega, by omega, by omega⟩
    have hz : ∀ k < 2 ^ d.toNat, fZero ((s.xfRestoreBlock d).xf.xa.get (0 + k)) = true := fun k hk => by
      rw [Nat.zero_add]
      exact hblock k hk
    rw [State.complete_buf, State.xfStore16Body, htaint]
    exact ⟨storeSamples_zero hz (.inr (hbyte 0 (by decide))), storeSamples_zero hz (.inr (hbyte 1 (by decide)))⟩
  case outside =>
    exact (xfRestore_writtenIn hexec).get_out fun ⟨i, hi, hbytes⟩ => hbytes.elim (ha i hi).1 (ha i hi).2

end Sys2Proof.Machine
end

section
/-! PROOFS. A step of either agent (70_reset_and_hazards.md R540) and the soft reset (R542). -/

namespace Sys2Proof.Machine

/-! ## The turns (R540) -/

/-- A pending command that decodes is run by the engine step. -/
theorem engineStep_decoded {s : State} {i : Instr} (h : decode s.cmd = .ok i) : engineStep s = exec i s := by
  rw [engineStep, h]

theorem hostStep_cons {s : State} {op : HostOp} {rest : List HostOp} (h : s.host = op :: rest) :
    s.hostStep = { s with host := rest }.hostOp op := by
  rw [State.hostStep, h]

theorem hostStep_nil {s : State} (h : s.host = []) : s.hostStep = s := by
  rw [State.hostStep, h]

/-- With no turn given a pending command moves before the host does (log 1). -/
theorem step_noTurn {s : State} (h : s.turns = []) : step s = if s.busy then engineStep s else .next s.hostStep := by
  rw [step, nextStep, h]

theorem step_hostTurn {s : State} {rest : List Agent} (h : s.turns = .host :: rest) :
    step s = .next { s with turns := rest }.hostStep := by
  rw [step, nextStep, h]

theorem step_engineTurn {s : State} {rest : List Agent} (h : s.turns = .engine :: rest) (hb : s.busy = true) :
    step s = engineStep { s with turns := rest } := by
  rw [step, nextStep, h]
  exact if_pos hb

/-- Settles O4: the turn decides the agent, and its step is the decoded command or the host's next operation. -/
theorem stepRunsDecodedCommand : Obligations.StepRunsDecodedCommand := by
  refine ⟨fun s i hb hi => ⟨fun ht => ?engine, fun rest ht => ?engineTurn⟩,
    fun s op rest hop => ⟨fun ht hb => ?host, fun ts ht => ?hostTurn⟩, fun s ht hb hh => ?idle⟩
  case engine => rw [step_noTurn ht, if_pos hb, engineStep_decoded hi]
  case engineTurn => rw [step_engineTurn ht hb, engineStep_decoded (s := { s with turns := rest }) hi]
  case host => rw [step_noTurn ht, if_neg (by simp [hb]), hostStep_cons hop]
  case hostTurn => rw [step_hostTurn ht, hostStep_cons (s := { s with turns := ts }) hop]
  case idle => rw [step_noTurn ht, if_neg (by simp [hb]), hostStep_nil hh]

/-! ## The soft reset (R542) -/

/-- A word write to CTRL resets DE by its bit 0, and does nothing else (10_state.md R31). -/
theorem store_ctrl (s : State) (v : Word) : s.store 0x04 .word v = if v.getLsbD 0 then s.softReset else s :=
  store_word (r := .ctrl) rfl rfl s v

/-- BUF is behind no register, so a soft reset shows the registers of a hardware reset. -/
theorem regValue_softReset (s : State) (r : Reg) : s.softReset.regValue r = s.hwReset.regValue r := by
  cases r <;> rfl

/-- Settles O11: bit 0 of a write to CTRL is the soft reset, which keeps BUF and the host's own side. -/
theorem softResetPreservesBuf : Obligations.SoftResetPreservesBuf := by
  refine fun s v => ⟨fun h => ?_, fun h => by rw [store_ctrl, if_neg (h ▸ Bool.false_ne_true)]⟩
  rw [store_ctrl, if_pos h]
  exact ⟨rfl, rfl, rfl, rfl, rfl, fun r => (regValue_softReset s r).trans (regValue_hwReset s r), fun _ => rfl⟩

end Sys2Proof.Machine
end

section
/-! PROOFS. Commands on units that are not ready (60_exceptions.md R503). -/

namespace Sys2Proof.Machine

section

variable {s : State}

theorem requireReady_error {c : Bool} (h : c = false) : s.requireReady c = .error ⟨.sequenceError, s.unitstat⟩ :=
  require_error.mpr ⟨h, rfl⟩

theorem requireDecoding_error (h : s.rc.st ≠ .decoding) : s.requireDecoding = .error ⟨.sequenceError, s.unitstat⟩ :=
  requireReady_error (by simpa using h)

/-- What the first part of a computation raises, the computation raises. -/
theorem Run.bind_error {α β : Type} {x : Run α} {f : α → Run β} {r : Raise} (h : x = .error r) : (x >>= f) = .error r := by
  rw [h, Run.error_bind]

/-- A command that finds its unit not ready aborts with SequenceError(UNITSTAT). -/
theorem unready_refused {i : Instr} {after : State} {checks : Run Unit} {body : Run State}
    (he : exec i s = runCommand s i.cmdId checks body after) (h : checks = .error ⟨.sequenceError, s.unitstat⟩) :
    exec i s = .next (s.aborted i.cmdId.unit i.cmdId.op 10 s.unitstat) :=
  refused_of_check ⟨.sequenceError, s.unitstat⟩ he h

/-- LZ_DECOMPRESS checks its window after the variant: initialised unless it is variant 1, of 4096 bytes for variant 2
(44_lzss.md R347). -/
theorem checkLzDecompress_unready {v : Nat} (hv : v ≤ 2) (h : (v ≠ 1 ∧ s.lz.valid = false) ∨ (v = 2 ∧ s.lz.w ≠ 4096)) :
    s.checkLzDecompress v = .error ⟨.sequenceError, s.unitstat⟩ := by
  have hknown : decide (v ≤ 4) = true := by simp; omega
  have hsupported : (decide (v ≠ 3) && decide (v ≠ 4)) = true := by simp; omega
  rw [State.checkLzDecompress, hknown, hsupported]
  simp only [require_true, Run.ok_bind]
  by_cases hready : (v == 1 || s.lz.valid) = true
  · rw [requireReady_ok hready, Run.ok_bind]
    have hwindow : (v != 2 || s.lz.w == 4096) = false := by
      rcases h with ⟨h1, hvalid⟩ | ⟨h2, hw⟩
      · simp [h1, hvalid] at hready
      · rw [h2, beq_eq_false_iff_ne.mpr hw]
        rfl
    rw [requireReady_error hwindow, Run.error_bind]
  · rw [requireReady_error (by simpa using hready), Run.error_bind]

theorem lzDecompress_unready {v : BitVec 4} (hv : v.toNat ≤ 2)
    (h : (v.toNat ≠ 1 ∧ s.lz.valid = false) ∨ (v.toNat = 2 ∧ s.lz.w ≠ 4096)) :
    exec (.lzDecompress v) s = .next (s.aborted 6 1 10 s.unitstat) :=
  unready_refused (i := .lzDecompress v) rfl (checkLzDecompress_unready hv h)

end

/-- Settles O16: each case of R503 is the first failing check of its command. -/
theorem unreadyUnitIsRefused : Obligations.UnreadyUnitIsRefused := by
  refine fun s => ⟨fun h => ?qs, fun h => ?rc, fun h => ?huf, fun h => ?lz, fun h => ?window, fun h => ?cam, fun h => ?neko⟩
  case qs =>
    have hc := requireReady_error (s := s) h
    refine ⟨unready_refused (i := .qsReset) (show execQsReset s = _ from rfl) hc,
      unready_refused (i := .qsGetsym) (show execQsGetsym s = _ from rfl) ?_,
      unready_refused (i := .qsGetfreq) (show execQsGetfreq s = _ from rfl) ?_,
      unready_refused (i := .qsUpdate) (show execQsUpdate s = _ from rfl) ?_, unready_refused (i := .rcDecode) rfl ?_⟩
    all_goals exact Run.bind_error hc
  case rc =>
    have hc := requireDecoding_error h
    refine ⟨unready_refused (i := .rcNormalize) rfl ?_,
      fun shift => unready_refused (i := .rcCulshift shift) rfl ?_, unready_refused (exec_rcUpdate_eq s) ?_⟩
    all_goals exact Run.bind_error hc
  case huf =>
    have hc := requireReady_error (s := s) h
    refine ⟨unready_refused (i := .hufGetcode) rfl ?_,
      unready_refused (i := .hufSetctx) (show execHufSetctx s = _ from rfl) ?_⟩
    all_goals exact Run.bind_error hc
  case lz =>
    exact ⟨lzDecompress_unready (v := 0) (by decide) (.inl ⟨by decide, h⟩),
      lzDecompress_unready (v := 2) (by decide) (.inl ⟨by decide, h⟩)⟩
  case window => exact lzDecompress_unready (v := 2) (by decide) (.inr ⟨rfl, h⟩)
  case cam =>
    have hc := requireReady_error (s := s) h
    refine ⟨unready_refused (exec_camDecblk s) ?_, unready_refused (exec_camDecrange s) ?_⟩
    all_goals exact Run.bind_error hc
  case neko => exact exec_nekoDecrypt_unkeyed h

end Sys2Proof.Machine
end

section
/-! PROOFS. A write to CMD (30_encoding.md R130, 60_exceptions.md R514): what it sets, and that no command reads STATUS.OVR. -/

namespace Sys2Proof.Machine

/-! ## STATUS.OVR and the commands (R514) -/

/-- The state with STATUS.OVR set. -/
def State.overrun (s : State) : State := { s with ovr := true }

/-- Command `i` in state `s` reads nothing of STATUS.OVR: with the flag set it makes the same checks, and what its body answers and
what an execution error leaves differ in the flag only. -/
def IgnoresOvr (i : Instr) (s : State) : Prop :=
  ∃ checks body after, exec i s = runCommand s i.cmdId checks body after
    ∧ exec i s.overrun = runCommand s.overrun i.cmdId checks (body.map State.overrun) after.overrun

/-- Such a command ends as it would without the flag, and leaves the flag set. -/
theorem IgnoresOvr.exec_overrun {i : Instr} {s t : State} (hi : IgnoresOvr i s) (h : exec i s = .next t) :
    exec i s.overrun = .next t.overrun := by
  obtain ⟨checks, body, after, he, ho⟩ := hi
  rw [ho]
  rcases runCommand_cases (he.symm.trans h) with ⟨r, rfl, rfl⟩ | ⟨u, rfl, rfl, rfl⟩ | ⟨r, rfl, rfl, rfl⟩
  · rfl
  · rfl
  · rfl

namespace IgnoresOvr

variable {i : Instr} {s u after after' : State} {checks : Run Unit} {body body' : Run State}

/-- A command that refuses nothing and answers at once. -/
theorem of_answer (he : exec i s = runCommand s i.cmdId (.ok ()) (.ok u) s)
    (ho : exec i s.overrun = runCommand s.overrun i.cmdId (.ok ()) (.ok u.overrun) s.overrun) : IgnoresOvr i s :=
  ⟨_, _, _, he, ho⟩

/-- A command with checks that answers at once. -/
theorem of_checked_answer (he : exec i s = runCommand s i.cmdId checks (.ok u) s)
    (ho : exec i s.overrun = runCommand s.overrun i.cmdId checks (.ok u.overrun) s.overrun) : IgnoresOvr i s :=
  ⟨_, _, _, he, ho⟩

/-- A command with a body of its own. -/
theorem of_body (he : exec i s = runCommand s i.cmdId checks body after)
    (ho : exec i s.overrun = runCommand s.overrun i.cmdId checks body' after') (hb : body' = body.map State.overrun)
    (ha : after' = after.overrun) : IgnoresOvr i s :=
  ⟨_, _, _, he, by rw [ho, hb, ha]⟩

end IgnoresOvr

/-! ## Bodies that differ in the flag only -/

section

variable {α β γ : Type} {h : β → γ}

theorem Run.bind_map {x : Run α} {f : α → Run β} {g : α → Run γ} (hg : ∀ a, g a = (f a).map h) :
    (x >>= g) = (x >>= f).map h := by
  cases x with
  | ok a => exact hg a
  | error r => rfl

theorem Run.ite_map {c : Prop} [Decidable c] {x y : Run β} {x' y' : Run γ} (hx : x' = x.map h) (hy : y' = y.map h) :
    (if c then x' else y') = (if c then x else y).map h := by
  rw [hx, hy]
  split
  · rfl
  · rfl

end

theorem srstBody_overrun (s : State) (u : Nat) : srstBody s.overrun u = (srstBody s u).overrun := by
  rw [srstBody_eq_withReset, srstBody_eq_withReset]
  rfl

theorem camDecryptFrom_overrun (s : State) (n a : Nat) (bo : BitVec 64) (buf : Store 8) :
    s.overrun.camDecryptFrom n a bo buf = s.camDecryptFrom n a bo buf := by
  induction n generalizing a bo buf with
  | zero => rfl
  | succ n ih => exact ih ..

theorem rcDecodeBody_overrun (s : State) : rcDecodeBody s.overrun = (rcDecodeBody s).map State.overrun :=
  Run.ite_map rfl (Run.bind_map fun ⟨_, _, _⟩ => Run.bind_map fun _ => rfl)

theorem lzBody_overrun (s : State) (v : Nat) : lzBody s.overrun v = (lzBody s v).map State.overrun :=
  Run.ite_map rfl (Run.bind_map fun _ => rfl)

theorem afterLzError_overrun (s : State) (v : Nat) : s.overrun.afterLzError v = (s.afterLzError v).overrun := by
  unfold State.afterLzError
  split
  · rfl
  · rfl

theorem golDecodeBody_overrun (s : State) : golDecodeBody s.overrun = (golDecodeBody s).map State.overrun :=
  Run.ite_map rfl (Run.bind_map fun ⟨_, _⟩ => Run.bind_map fun _ => rfl)

theorem golStart_overrun (s : State) : s.overrun.golStart = s.golStart.overrun :=
  (apply_ite State.overrun (s.arg 0 = 0) s s.markOverlap).symm

/-! ## Every command -/

theorem srstUnit_ignoresOvr (u : BitVec 4) (s : State) : IgnoresOvr (.srstUnit u) s := by
  refine .of_checked_answer (u := srstBody s u.toNat) rfl ?_
  rw [← srstBody_overrun]
  rfl

theorem golDecode_ignoresOvr (s : State) : IgnoresOvr .golDecode s := by
  refine .of_body (body := golDecodeBody s.golStart) (body' := golDecodeBody s.overrun.golStart) rfl rfl ?_ rfl
  rw [golStart_overrun]
  exact golDecodeBody_overrun _

theorem camDecrange_ignoresOvr (s : State) : IgnoresOvr .camDecrange s := by
  refine .of_body (exec_camDecrange s) (exec_camDecrange s.overrun) ?_ rfl
  rw [camDecryptFrom_overrun]
  rfl

/-- No command reads STATUS.OVR: those that answer at once by their definition, the others by what their bodies do with the flag. -/
theorem exec_ignoresOvr (i : Instr) (s : State) : IgnoresOvr i s := by
  cases i with
  | srstUnit u => exact srstUnit_ignoresOvr u s
  | brGetbit => exact .of_body rfl rfl (Run.bind_map fun ⟨_, _⟩ => rfl) rfl
  | brGetbits n => exact .of_body rfl rfl (Run.bind_map fun ⟨_, _⟩ => rfl) rfl
  | rcStart => exact .of_body rfl rfl (Run.bind_map fun ⟨_, _, _⟩ => rfl) rfl
  | rcCulshift shift => exact .of_body rfl rfl (Run.bind_map fun ⟨_, _, _⟩ => rfl) rfl
  | rcNormalize => exact .of_body rfl rfl (Run.bind_map fun ⟨_, _, _⟩ => rfl) rfl
  | rcDecode => exact .of_body rfl rfl (rcDecodeBody_overrun s.markOverlap) rfl
  | hufGetcode => exact .of_body rfl rfl (Run.bind_map fun ⟨_, _⟩ => rfl) rfl
  | golGamma => exact .of_body rfl rfl (Run.bind_map fun ⟨_, _, _⟩ => rfl) rfl
  | golRunlen => exact .of_body rfl rfl (Run.bind_map fun ⟨_, _, _⟩ => rfl) rfl
  | golValue => exact .of_body rfl rfl (Run.bind_map fun _ => rfl) rfl
  | golDecode => exact golDecode_ignoresOvr s
  | lzDecompress v =>
    exact .of_body rfl rfl (lzBody_overrun s.markOverlap v.toNat) (afterLzError_overrun s.markOverlap v.toNat)
  | camDecrange => exact camDecrange_ignoresOvr s
  | xfRestore degree => exact .of_body rfl rfl (Run.bind_map fun _ => rfl) rfl
  | nop | brInit | hufInit | golResetctx | camSetkey | nekoSetkey64 | nekoSethash | xfClrcarry => exact .of_answer rfl rfl
  | _ => exact .of_checked_answer rfl rfl

/-! ## A write to CMD -/

/-- Settles O6: a write to CMD is `State.issue`, and OVR is nothing a command reads. -/
theorem cmdWriteIssuesOrOverruns : Obligations.CmdWriteIssuesOrOverruns := by
  have hissue : ∀ (s : State) (cw : Word), s.store 0x18 .word cw = s.issue cw := fun s cw =>
    store_word (r := .cmd) rfl rfl s cw
  refine ⟨fun s cw hb => ?busy, fun s t i h => (exec_ignoresOvr i s).exec_overrun h, fun s cw hb => ?idle⟩
  case busy => rw [hissue, State.issue, if_pos hb]
  case idle => rw [hissue, State.issue, if_neg (hb ▸ Bool.false_ne_true)]

end Sys2Proof.Machine
end

section
/-! PROOFS. The two classes of errors (60_exceptions.md R501, R513): everything a decoder raises after its checks is an execution
error. -/

namespace Sys2Proof.Machine

/-! ## The classes (R501) -/

/-- The execution errors: FormatError, TruncatedInput and DestinationFull. -/
def Err.isExecution (e : Err) : Bool :=
  match e with
  | .formatError | .truncatedInput | .destinationFull => true
  | _ => false

theorem Err.isExecution_iff (e : Err) : e.isExecution = true ↔ e.code ∈ [1, 2, 7] := by
  cases e <;> decide

theorem Err.isExecution_of_preCheck {e : Err} (h : e.code ∈ [3, 5, 6, 10]) : e.isExecution = false := by
  revert h
  cases e <;> decide

/-- The low byte of ERRCODE is the code of the error (R510). -/
theorem errWord_code (i : Instr) (e : Err) : (errWord i.cmdId e).toNat % 256 = e.code := by
  have hcode : e.code < 256 := by cases e <;> decide
  rw [show errWord i.cmdId e = _ from errWord_eq (cmdId_lt i).1 (cmdId_lt i).2 e, BitVec.toNat_ofNat]
  omega

/-! ## How a computation ends -/

/-- Whatever `x` answers has the property `P`, and the error of whatever it raises the property `Q`. -/
def Run.Ends {α : Type} (x : Run α) (P : α → Prop) (Q : Err → Prop) : Prop :=
  match x with
  | .ok a => P a
  | .error r => Q r.err

namespace Run.Ends

variable {α β : Type} {x : Run α} {P P' : α → Prop} {R : β → Prop} {Q Q' : Err → Prop}

theorem of_forall (hP : ∀ a, P a) (hQ : ∀ e, Q e) : Run.Ends x P Q := by
  cases x with
  | ok a => exact hP a
  | error r => exact hQ r.err

theorem of_ok {a : α} (h : Run.Ends x P Q) (hx : x = .ok a) : P a := by
  subst hx; exact h

theorem of_error {r : Raise} (h : Run.Ends x P Q) (hx : x = .error r) : Q r.err := by
  subst hx; exact h

theorem mono (h : Run.Ends x P Q) (hP : ∀ a, P a → P' a) (hQ : ∀ e, Q e → Q' e) : Run.Ends x P' Q' := by
  cases x with
  | ok a => exact hP a h
  | error r => exact hQ r.err h

theorem bind {f : α → Run β} (h : Run.Ends x P Q) (hf : ∀ a, P a → Run.Ends (f a) R Q) : Run.Ends (x >>= f) R Q := by
  cases x with
  | ok a => exact hf a h
  | error r => exact h

end Run.Ends

/-- A computation after the checks: it answers anything, and raises execution errors only. -/
abbrev Run.Executes {α : Type} (x : Run α) : Prop := Run.Ends x (fun _ => True) (fun e => e.isExecution = true)

/-- A check: it passes with `P`, and raises pre-check errors only. -/
abbrev Run.Checks {α : Type} (x : Run α) (P : α → Prop) : Prop := Run.Ends x P (fun e => e.isExecution = false)

/-! ## The checks -/

theorem require_checks {c : Bool} {e : Err} (info : Word) (he : e.isExecution = false) :
    Run.Checks (require c e info) (fun _ => c = true) := by
  cases c
  · exact he
  · exact rfl

theorem requireReady_checks (s : State) (c : Bool) : Run.Checks (s.requireReady c) (fun _ => c = true) := require_checks _ rfl

theorem checkSrc_checks (s : State) : Run.Checks s.checkSrc (fun _ => s.srcInBounds = true) := require_checks _ rfl

theorem checkDst_checks (s : State) : Run.Checks s.checkDst (fun _ => s.dstInBounds = true) := require_checks _ rfl

theorem checkSpans_checks (s : State) :
    Run.Checks (do s.checkSrc; s.checkDst) (fun _ => s.srcInBounds = true ∧ s.dstInBounds = true) :=
  .bind (checkSrc_checks s) fun _ hs => (checkDst_checks s).mono (fun _ hd => ⟨hs, hd⟩) fun _ => id

theorem checkLzDecompress_checks (s : State) (v : Nat) :
    Run.Checks (s.checkLzDecompress v) (fun _ => s.srcInBounds = true ∧ s.dstInBounds = true) :=
  .bind (require_checks _ rfl) fun _ _ => .bind (require_checks _ rfl) fun _ _ => .bind (requireReady_checks _ _) fun _ _ =>
    .bind (requireReady_checks _ _) fun _ _ => checkSpans_checks s

/-- Every output of a checked GOL_DECODE lies in the destination span, from the cursor on (43_golomb_gamma.md R320). -/
theorem checkGolDecode_checks {s : State} (h0 : s.arg 0 ≠ 0) : Run.Checks s.checkGolDecode (fun _ => s.srcInBounds = true
    ∧ ∀ j < (s.arg 0).toNat, s.dst.base.toNat + s.dst.pos.toNat ≤ s.golOut j
      ∧ s.golOut j < s.dst.base.toNat + s.dst.len.toNat) := by
  unfold State.checkGolDecode
  rw [if_neg h0]
  refine .bind (require_checks _ rfl) fun _ _ => .bind (checkSrc_checks s) fun _ hs => .bind (checkDst_checks s) fun _ _ =>
    (require_checks _ rfl).mono (fun _ hl => ⟨hs, fun j hj => ?_⟩) fun _ => id
  have hl := of_decide_eq_true hl
  have hm : j * (s.arg 1).toNat ≤ ((s.arg 0).toNat - 1) * (s.arg 1).toNat := Nat.mul_le_mul_right _ (by omega)
  unfold State.golOut
  omega

/-! ## Source reads (20_memory.md R106 to R108) -/

theorem srcBit_executes (e : Env) (io : Io) : Run.Executes (srcBit e io) := by
  unfold srcBit
  split
  · exact rfl
  · exact trivial

theorem srcByte_executes (e : Env) (io : Io) : Run.Executes (srcByte e io) := by
  unfold srcByte
  dsimp only
  split
  · exact rfl
  · exact trivial

theorem srcBitsFrom_executes (e : Env) (n i v : Nat) (io : Io) : Run.Executes (srcBitsFrom e n i v io) := by
  induction n generalizing i v io with
  | zero => exact trivial
  | succ n ih =>
    unfold srcBitsFrom
    split
    · next hb => exact (srcBit_executes e io).of_error hb
    · exact ih ..

theorem srcBits_executes (e : Env) (n : Nat) (io : Io) : Run.Executes (srcBits e n io) := srcBitsFrom_executes ..

/-! ## Gamma codes and Golomb values (43_golomb_gamma.md R300, R301, R318, R320) -/

theorem eriPairs_executes (e : Env) (left code base pairs : Nat) (io : Io) :
    Run.Executes (eriPairs e left code base pairs io) := by
  induction left generalizing code base pairs io with
  | zero =>
    unfold eriPairs
    refine .bind (srcBit_executes ..) fun _ _ => .bind (srcBit_executes ..) fun _ _ => ?_
    dsimp only
    split
    · exact trivial
    · exact rfl
  | succ left ih =>
    unfold eriPairs
    refine .bind (srcBit_executes ..) fun _ _ => .bind (srcBit_executes ..) fun _ _ => ?_
    dsimp only
    split
    · exact trivial
    · exact ih ..

theorem eriGamma_executes (e : Env) (io : Io) : Run.Executes (eriGamma e io) := by
  unfold eriGamma
  refine .bind (srcBit_executes ..) fun _ _ => ?_
  dsimp only
  split
  · exact trivial
  · exact eriPairs_executes ..

theorem runZeros_executes (e : Env) (left z : Nat) (io : Io) : Run.Executes (runZeros e left z io) := by
  induction left generalizing z io with
  | zero =>
    unfold runZeros
    refine .bind (srcBit_executes ..) fun _ _ => ?_
    dsimp only
    split
    · exact trivial
    · exact rfl
  | succ left ih =>
    unfold runZeros
    refine .bind (srcBit_executes ..) fun _ _ => ?_
    dsimp only
    split
    · exact trivial
    · exact ih ..

theorem runGamma_executes (e : Env) (io : Io) : Run.Executes (runGamma e io) :=
  .bind (runZeros_executes ..) fun _ _ => .bind (srcBits_executes ..) fun _ _ => trivial

theorem golPrefix_executes (e : Env) (io : Io) : Run.Executes (golPrefix e io) := by
  unfold golPrefix golEscape
  split
  · dsimp only
    split
    · exact rfl
    · exact trivial
  · exact golUnary_eq_runZeros e 255 0 io ▸ runZeros_executes ..

theorem golValue_executes (e : Env) (g : Gol) (io : Io) : Run.Executes (golValue e g io) := by
  unfold golValue
  split
  · exact rfl
  · exact .bind (golPrefix_executes ..) fun _ _ => .bind (srcBits_executes ..) fun _ _ => trivial

theorem golRun_executes (e : Env) (zero : Bool) (stride c at_ : Nat) (l : GolLoop) :
    Run.Executes (golRun e zero stride c at_ l) := by
  induction c generalizing at_ l with
  | zero => exact trivial
  | succ c ih =>
    unfold golRun
    split
    · exact ih ..
    · split
      · next hb => exact (golValue_executes ..).of_error hb
      · exact ih ..

theorem golRuns_executes (e : Env) (stride count base fuel i : Nat) (zero : Bool) (l : GolLoop) :
    Run.Executes (golRuns e stride count base fuel i zero l) := by
  induction fuel generalizing i zero l with
  | zero => exact trivial
  | succ fuel ih =>
    unfold golRuns
    split
    · split
      · next hb => exact (runGamma_executes ..).of_error hb
      · split
        · exact rfl
        · split
          · next hb => exact (golRun_executes ..).of_error hb
          · exact ih ..
    · exact trivial

/-! ## Huffman codes (42_huffman.md R268) -/

theorem hufWalk_executes (e : Env) (c : Store 32) (fuel : Nat) (ch : BitVec 32) (io : Io) :
    Run.Executes (hufWalk e c fuel ch io) := by
  induction fuel generalizing ch io with
  | zero => exact rfl
  | succ fuel ih =>
    unfold hufWalk
    split
    · next hb => exact (srcBit_executes e io).of_error hb
    · dsimp only
      split
      · exact trivial
      · exact ih ..

theorem hufLiteral_executes (e : Env) (t : Tree) (io : Io) : Run.Executes (hufLiteral e t io) :=
  .bind (srcBits_executes ..) fun _ _ => trivial

theorem hufDecodeTree_executes (e : Env) (t : Tree) (io : Io) : Run.Executes (hufDecodeTree e t io) := by
  unfold hufDecodeTree
  split
  · exact hufLiteral_executes ..
  · refine .bind (hufWalk_executes ..) fun _ _ => ?_
    dsimp only
    split
    · exact hufLiteral_executes ..
    · exact trivial

/-! ## The range decoder (41_range_coder.md R203, R204, R207, R230) -/

theorem rcNormalizeFrom_executes (g : RcCfg) (e : Env) (fuel n : Nat) (rc : Rc) (io : Io) :
    Run.Executes (rcNormalizeFrom g e fuel n rc io) := by
  cases h : rcNormalizeFrom g e fuel n rc io with
  | ok _ => exact trivial
  | error r => exact congrArg Err.isExecution (rcNormalizeFrom_error h)

theorem rcNormalize_executes (g : RcCfg) (e : Env) (rc : Rc) (io : Io) : Run.Executes (rcNormalize g e rc io) :=
  rcNormalizeFrom_executes ..

theorem rcStartup_executes (g : RcCfg) (e : Env) (io : Io) : Run.Executes (rcStartup g e io) :=
  .bind (srcByte_executes ..) fun _ _ => .bind (srcByte_executes ..) fun _ _ => trivial

theorem rcCulshift_executes (g : RcCfg) (e : Env) (shift : Nat) (rc : Rc) (io : Io) :
    Run.Executes (rcCulshift g e shift rc io) :=
  .bind (rcNormalize_executes ..) fun _ _ => trivial

theorem rcDecodeFrom_executes (g : RcCfg) (e : Env) (fuel : Nat) (l : RcLoop) : Run.Executes (rcDecodeFrom g e fuel l) := by
  induction fuel generalizing l with
  | zero => exact rfl
  | succ fuel ih =>
    unfold rcDecodeFrom
    split
    · next hb => exact (rcCulshift_executes ..).of_error hb
    · dsimp only
      split
      · exact trivial
      · split
        · exact rfl
        · exact ih _

/-! ## LZSS streams (44_lzss.md R341, R350 to R352) -/

theorem lzFlags_executes (e : Env) (ctl : Nat) (io : Io) : Run.Executes (lzFlags e ctl io) := by
  unfold lzFlags
  dsimp only
  split
  · split
    · next hb => exact (srcByte_executes e io).of_error hb
    · exact trivial
  · exact trivial

theorem lzCopyStrict_executes (e : Env) (n pos : Nat) (l : LzLoop) : Run.Executes (lzCopyStrict e n pos l) := by
  induction n generalizing pos l with
  | zero => exact trivial
  | succ n ih =>
    unfold lzCopyStrict
    split
    · exact rfl
    · exact ih ..

theorem stdStep_executes (e : Env) (ctl : Nat) (l : LzLoop) : Run.Executes (stdStep e ctl l) := by
  unfold stdStep
  split
  · exact .bind (srcByte_executes ..) fun _ _ => trivial
  · exact .bind (srcByte_executes ..) fun _ _ => .bind (srcByte_executes ..) fun _ _ => trivial

theorem stdFrom_executes (e : Env) (fuel ctl : Nat) (l : LzLoop) : Run.Executes (stdFrom e fuel ctl l) := by
  induction fuel generalizing ctl l with
  | zero => exact trivial
  | succ fuel ih =>
    unfold stdFrom
    split
    · exact trivial
    · split
      · next hb => exact (lzFlags_executes ..).of_error hb
      · split
        · next hb => exact (stdStep_executes ..).of_error hb
        · exact ih ..

theorem onsStep_executes (e : Env) (l : LzLoop) : Run.Executes (onsStep e l) := by
  unfold onsStep
  refine .bind (srcBit_executes ..) fun _ _ => ?_
  dsimp only
  split
  · exact .bind (srcBits_executes ..) fun _ _ => trivial
  · exact .bind (srcBits_executes ..) fun _ _ => .bind (srcBits_executes ..) fun _ _ => trivial

theorem onsFrom_executes (e : Env) (fuel : Nat) (l : LzLoop) : Run.Executes (onsFrom e fuel l) := by
  induction fuel generalizing l with
  | zero => exact trivial
  | succ fuel ih =>
    unfold onsFrom
    split
    · exact trivial
    · split
      · next hb => exact (onsStep_executes ..).of_error hb
      · exact ih _

theorem tlg5Step_executes (e : Env) (ctl : Nat) (l : LzLoop) : Run.Executes (tlg5Step e ctl l) := by
  unfold tlg5Step
  split
  · refine .bind (srcByte_executes ..) fun _ _ => .bind (srcByte_executes ..) fun _ _ => ?_
    dsimp only
    split
    · exact .bind (srcByte_executes ..) fun _ _ => lzCopyStrict_executes ..
    · exact lzCopyStrict_executes ..
  · split
    · exact rfl
    · exact .bind (srcByte_executes ..) fun _ _ => trivial

theorem tlg5From_executes (e : Env) (fuel ctl : Nat) (l : LzLoop) : Run.Executes (tlg5From e fuel ctl l) := by
  induction fuel generalizing ctl l with
  | zero => exact trivial
  | succ fuel ih =>
    unfold tlg5From
    split
    · exact trivial
    · split
      · next hb => exact (lzFlags_executes ..).of_error hb
      · split
        · exact trivial
        · split
          · next hb => exact (tlg5Step_executes ..).of_error hb
          · exact ih ..

theorem lzVariant_executes (s : State) (v : Nat) : Run.Executes (lzVariant s v) := by
  unfold lzVariant
  dsimp only
  split
  · exact stdFrom_executes ..
  · split
    · exact onsFrom_executes ..
    · exact tlg5From_executes ..

/-! ## The transform's samples (47_transform.md R475) -/

theorem checkNaN_executes (s : State) (n : Nat) : Run.Executes (s.checkNaN n) := by
  unfold State.checkNaN
  split
  · exact trivial
  · exact rfl

end Sys2Proof.Machine
end

section
/-! PROOFS. What an execution error may leave (60_exceptions.md R511.2), and that every command's errors keep to R511. -/

namespace Sys2Proof.Machine

/-! ## What R511.2 allows -/

/-- From `s` to `u` the cursors moved within their spans only, BUF changed inside the destination span from DST_POS on only, and
each unit is as it was or invalid, Golomb's context and the transform arrays aside (R511.2). -/
structure State.Confined (s u : State) : Prop where
  src : u.src.pos = s.src.pos ∨ (s.src.pos.toNat ≤ u.src.pos.toNat ∧ u.src.pos.toNat ≤ 8 * s.src.len.toNat)
  dst : u.dst.pos = s.dst.pos ∨ (s.dst.pos.toNat ≤ u.dst.pos.toNat ∧ u.dst.pos.toNat ≤ s.dst.len.toNat)
  buf : ∀ a, a < s.dst.base.toNat + s.dst.pos.toNat ∨ s.dst.base.toNat + s.dst.len.toNat ≤ a → u.buf.get a = s.buf.get a
  lsb : u.lsb = s.lsb
  cam : u.cam = s.cam
  neko : u.neko = s.neko
  rc : u.rc = s.rc ∨ u.rc.st = .idle
  qs : u.qs = s.qs ∨ u.qs.valid = false
  huf : u.huf = s.huf ∨ (u.huf.valid = false ∧ u.huf.order1 = s.huf.order1)
  lz : u.lz = s.lz ∨ u.lz.valid = false

theorem freeBetween_mem (event entry : Nat) {lo hi : Nat} (h : lo ≤ hi) :
    lo ≤ freeBetween event entry lo hi ∧ freeBetween event entry lo hi ≤ hi := by
  have hmod := Nat.mod_lt (Config.freeBits 32 event entry).toNat (show 0 < hi - lo + 1 by omega)
  unfold freeBetween
  omega

theorem State.loseSrcPos_pos (u : State) :
    u.loseSrcPos.src.pos = wordOf (freeBetween (u.draws + 9) 0 u.src.pos.toNat (8 * u.src.len.toNat)) := rfl

theorem State.loseDst_pos (u : State) :
    u.loseDst.dst.pos = wordOf (freeBetween (u.draws + 9) 1 u.dst.pos.toNat u.dst.len.toNat) := rfl

theorem State.loseBytes_buf (u : State) (entries : List Nat) :
    (u.loseBytes entries).buf = u.buf.setEach entries (fun a => Config.freeBits 8 (u.draws + 2) a) := rfl

namespace State.Confined

theorem refl {s : State} : s.Confined s :=
  ⟨.inl rfl, .inl rfl, fun _ _ => rfl, rfl, rfl, rfl, .inl rfl, .inl rfl, .inl rfl, .inl rfl⟩

variable {s u : State} (h : s.Confined u)
include h

theorem markOverlap : s.Confined u.markOverlap := { h with }

theorem endDraws : s.Confined u.endDraws := { h with }

theorem loseRc : s.Confined u.loseRc := { h with rc := .inr rfl }

theorem loseQs : s.Confined u.loseQs := { h with qs := .inr rfl }

theorem loseGol : s.Confined u.loseGol := { h with }

theorem loseXf (n : Nat) : s.Confined (u.loseXf n) := { h with }

/-- HUF_ORDER1 is kept (log 23). -/
theorem loseHuf : s.Confined u.loseHuf :=
  { h with huf := .inr ⟨rfl, h.huf.elim (congrArg Huf.order1) And.right⟩ }

/-- Whatever window the command had seeded for itself (44_lzss.md R347). -/
theorem loseLz_of (z : Lz) : s.Confined { u with lz := z }.loseLz := { h with lz := .inr rfl }

theorem loseSrcPos (hs : s.srcInBounds = true) (hu : u.src = s.src) : s.Confined u.loseSrcPos := by
  have hmem := freeBetween_mem (u.draws + 9) 0 (srcInBounds_iff.mp hs).2
  have hlt := bitpos_lt hs
  refine { h with src := .inr ?_ }
  rw [State.loseSrcPos_pos, hu, wordOf_toNat (by omega)]
  exact hmem

theorem loseDst (hd : s.dstInBounds = true) (hu : u.dst = s.dst) : s.Confined u.loseDst := by
  obtain ⟨-, hpos⟩ := dstInBounds_iff.mp hd
  have hmem := freeBetween_mem (u.draws + 9) 1 hpos
  have hlt := s.dst.len.isLt
  refine { h with dst := .inr ?_, buf := fun a ha => ?_ }
  · rw [State.loseDst_pos, hu, wordOf_toNat (by omega)]
    exact hmem
  · rw [← h.buf a ha]
    exact (loseDst_writtenIn u none (hu ▸ hpos)).get_out (by rw [hu]; omega)

theorem loseBytes {entries : List Nat} (he : ∀ a ∈ entries, s.dst.base.toNat + s.dst.pos.toNat ≤ a
    ∧ a < s.dst.base.toNat + s.dst.len.toNat) : s.Confined (u.loseBytes entries) := by
  refine { h with buf := fun a ha => ?_ }
  have hout : a ∉ entries := fun hmem => by have := he a hmem; omega
  rw [← h.buf a ha, State.loseBytes_buf, Store.get_setEach, if_neg hout]

end State.Confined

/-- The units that an execution error of command `i` makes invalid are invalid in `u` (R511.2, 41_range_coder.md R201). -/
def State.InvalidFor (u : State) (i : Instr) : Prop :=
  match i with
  | .rcStart | .rcNormalize | .rcCulshift _ => u.rc.st = .idle
  | .rcDecode => u.rc.st = .idle ∧ u.qs.valid = false
  | .hufGetcode => u.huf.valid = false
  | .lzDecompress _ => u.lz.valid = false
  | _ => True

theorem State.InvalidFor.units {u : State} {i : Instr} (h : u.InvalidFor i) :
    (i = .rcStart ∨ i = .rcNormalize ∨ i = .rcDecode ∨ (∃ shift, i = .rcCulshift shift) → u.rc.st = .idle)
    ∧ (i = .rcDecode → u.qs.valid = false) ∧ (i = .hufGetcode → u.huf.valid = false)
    ∧ ((∃ v, i = .lzDecompress v) → u.lz.valid = false) := by
  refine ⟨?rc, ?qs, ?huf, ?lz⟩
  case rc =>
    rintro (rfl | rfl | rfl | ⟨shift, rfl⟩)
    · exact h
    · exact h
    · exact h.1
    · exact h
  case qs => rintro rfl; exact h.2
  case huf => rintro rfl; exact h
  case lz => rintro ⟨v, rfl⟩; exact h

/-! ## The errors of one command -/

/-- A command raises its pre-check errors before it changes anything and its execution errors in its body, which leave what R511.2
allows; without an error ERR stays. A check that raises an execution error (R506, R507) is one of a command that makes no unit
invalid. -/
def ErrsByClass (i : Instr) (s : State) : Prop :=
  ∃ checks body after, exec i s = runCommand s i.cmdId checks body after
    ∧ Run.Ends checks
      (fun _ => Run.Ends body (fun u => u.err = s.err)
        (fun e => e.isExecution = true ∧ s.Confined after ∧ after.InvalidFor i))
      (fun e => e.isExecution = true → s.InvalidFor i)

/-- A command with checks whose body raises nothing. -/
theorem ErrsByClass.of_checked_answer {i : Instr} {s u : State} {checks : Run Unit}
    (he : exec i s = runCommand s i.cmdId checks (.ok u) s) (hu : u.err = s.err) (hi : s.InvalidFor i) : ErrsByClass i s :=
  ⟨_, _, _, he, .of_forall (fun _ => hu) fun _ _ => hi⟩

/-- A command that raises nothing. -/
theorem ErrsByClass.of_answer {i : Instr} {s u : State} (he : exec i s = runCommand s i.cmdId (.ok ()) (.ok u) s)
    (hu : u.err = s.err) : ErrsByClass i s :=
  ⟨_, _, _, he, hu⟩

/-- A command that makes no unit invalid, whatever its checks raise. -/
theorem ErrsByClass.of_body {i : Instr} {s after : State} {checks : Run Unit} {body : Run State}
    (he : exec i s = runCommand s i.cmdId checks body after)
    (hb : Run.Ends body (fun u => u.err = s.err) (fun e => e.isExecution = true)) (ha : s.Confined after)
    (hi : ∀ u : State, u.InvalidFor i) : ErrsByClass i s :=
  ⟨_, _, _, he, .of_forall (fun _ => hb.mono (fun _ => id) fun _ hexec => ⟨hexec, ha, hi after⟩) fun _ _ => hi s⟩

/-- A decoder: its checks raise pre-check errors only. -/
theorem ErrsByClass.of_checks {i : Instr} {s after : State} {checks : Run Unit} {body : Run State} {P : Unit → Prop}
    (he : exec i s = runCommand s i.cmdId checks body after) (hc : Run.Checks checks P)
    (hb : Run.Ends body (fun u => u.err = s.err) (fun e => e.isExecution = true))
    (ha : P () → s.Confined after ∧ after.InvalidFor i) : ErrsByClass i s :=
  ⟨_, _, _, he, hc.mono (fun _ hP => hb.mono (fun _ => id) fun _ hexec => ⟨hexec, ha hP⟩)
    fun _ hpre hexec => absurd (hpre.symm.trans hexec) Bool.false_ne_true⟩

theorem brGetbit_errs (s : State) : ErrsByClass .brGetbit s :=
  .of_body rfl (.bind (srcBit_executes ..) fun _ _ => rfl) .refl fun _ => trivial

theorem brGetbits_errs (n : BitVec 6) (s : State) : ErrsByClass (.brGetbits n) s :=
  .of_body rfl (.bind (srcBits_executes ..) fun _ _ => rfl) .refl fun _ => trivial

theorem srstUnit_errs (u : BitVec 4) (s : State) : ErrsByClass (.srstUnit u) s := by
  refine .of_checked_answer rfl ?_ trivial
  rw [srstBody_eq_withReset]
  rfl

theorem afterRcError_confined {s : State} (hs : s.srcInBounds = true) : s.Confined s.afterRcError :=
  (State.Confined.refl.loseSrcPos hs rfl).loseRc.endDraws

theorem rcStart_errs (s : State) : ErrsByClass .rcStart s :=
  .of_checks rfl (checkSrc_checks s) (.bind (rcStartup_executes ..) fun _ _ => rfl) fun hs => ⟨afterRcError_confined hs, rfl⟩

theorem rcCulshift_errs (shift : BitVec 5) (s : State) : ErrsByClass (.rcCulshift shift) s :=
  .of_checks rfl (.bind (requireReady_checks s _) fun _ _ => .bind (require_checks _ rfl) fun _ _ => checkSrc_checks s)
    (.bind (rcCulshift_executes ..) fun _ _ => rfl) fun hs => ⟨afterRcError_confined hs, rfl⟩

theorem rcNormalize_errs (s : State) : ErrsByClass .rcNormalize s :=
  .of_checks rfl (.bind (requireReady_checks s _) fun _ _ => checkSrc_checks s)
    (.bind (rcNormalize_executes ..) fun _ _ => rfl) fun hs => ⟨afterRcError_confined hs, rfl⟩

theorem rcDecodeBody_ends (s : State) : Run.Ends (rcDecodeBody s) (fun u => u.err = s.err) (fun e => e.isExecution = true) := by
  unfold rcDecodeBody
  split
  · exact rfl
  · exact .bind (rcStartup_executes ..) fun _ _ => .bind (rcDecodeFrom_executes ..) fun _ _ => rfl

theorem rcDecode_errs (s : State) : ErrsByClass .rcDecode s :=
  .of_checks rfl (.bind (requireReady_checks s _) fun _ _ => checkSpans_checks s) (rcDecodeBody_ends s.markOverlap)
    fun ⟨hs, hd⟩ => ⟨((State.Confined.refl.markOverlap.loseSrcPos hs rfl).loseDst hd rfl).loseRc.loseQs.endDraws, rfl, rfl⟩

theorem hufGetcode_errs (s : State) : ErrsByClass .hufGetcode s :=
  .of_checks rfl (.bind (requireReady_checks s _) fun _ _ => checkSrc_checks s)
    (.bind (hufDecodeTree_executes ..) fun _ _ => rfl)
    fun hs => ⟨(State.Confined.refl.loseSrcPos hs rfl).loseHuf.endDraws, rfl⟩

theorem golGamma_errs (s : State) : ErrsByClass .golGamma s :=
  .of_checks rfl (checkSrc_checks s) (.bind (eriGamma_executes ..) fun _ _ => rfl)
    fun hs => ⟨(State.Confined.refl.loseSrcPos hs rfl).endDraws, trivial⟩

theorem golRunlen_errs (s : State) : ErrsByClass .golRunlen s :=
  .of_checks rfl (checkSrc_checks s) (.bind (runGamma_executes ..) fun _ _ => rfl)
    fun hs => ⟨(State.Confined.refl.loseSrcPos hs rfl).endDraws, trivial⟩

theorem golValue_errs (s : State) : ErrsByClass .golValue s :=
  .of_checks rfl (checkSrc_checks s) (.bind (golValue_executes ..) fun _ _ => rfl)
    fun hs => ⟨(State.Confined.refl.loseSrcPos hs rfl).loseGol.endDraws, trivial⟩

theorem golDecodeBody_ends (s : State) :
    Run.Ends (golDecodeBody s) (fun u => u.err = s.err) (fun e => e.isExecution = true) := by
  unfold golDecodeBody
  split
  · exact rfl
  · exact .bind (srcBit_executes ..) fun _ _ => .bind (golRuns_executes ..) fun _ _ => rfl

/-- With a count of 0 GOL_DECODE checks nothing and raises nothing (20_memory.md R110). -/
theorem golDecode_errs (s : State) : ErrsByClass .golDecode s := by
  by_cases h0 : s.arg 0 = 0
  · refine ⟨_, _, _, rfl, .of_forall (fun _ => ?_) fun _ _ => trivial⟩
    rw [if_pos h0, golDecodeBody, if_pos h0]
    exact rfl
  · refine .of_checks rfl (checkGolDecode_checks h0) ?_ fun ⟨hs, hout⟩ => ⟨?_, trivial⟩
    · rw [if_neg h0]
      exact golDecodeBody_ends s.markOverlap
    · refine ((State.Confined.refl.markOverlap.loseSrcPos hs rfl).loseBytes fun a ha => ?_).loseGol.endDraws
      obtain ⟨j, hj, rfl⟩ := List.mem_map.mp ha
      exact hout j (List.mem_range.mp hj)

theorem lzBody_ends (s : State) (v : Nat) :
    Run.Ends (lzBody s v) (fun u => u.err = s.err) (fun e => e.isExecution = true) := by
  unfold lzBody
  split
  · exact rfl
  · exact .bind (lzVariant_executes s v) fun _ _ => rfl

theorem lzDecompress_errs (variant : BitVec 4) (s : State) : ErrsByClass (.lzDecompress variant) s := by
  refine .of_checks rfl (checkLzDecompress_checks s _) (lzBody_ends s.markOverlap _) fun ⟨hs, hd⟩ => ⟨?_, rfl⟩
  have h := (State.Confined.refl.markOverlap.loseSrcPos hs rfl).loseDst hd rfl
  unfold State.afterLzError
  split
  · exact (h.loseLz_of (lzOns s.lz)).endDraws
  · exact (h.loseLz_of s.lz).endDraws

theorem xfRestore_errs (degree : BitVec 4) (s : State) : ErrsByClass (.xfRestore degree) s :=
  .of_body rfl (.bind (checkNaN_executes ..) fun _ _ => (xfRestoreBlock_frame degree s).err)
    (State.Confined.refl.loseXf _).endDraws.endDraws fun _ => trivial

/-- The errors of every command: the decoders one by one, the others answer as soon as their checks pass. -/
theorem exec_errsByClass (i : Instr) (s : State) : ErrsByClass i s := by
  cases i with
  | srstUnit u => exact srstUnit_errs u s
  | brGetbit => exact brGetbit_errs s
  | brGetbits n => exact brGetbits_errs n s
  | rcStart => exact rcStart_errs s
  | rcCulshift shift => exact rcCulshift_errs shift s
  | rcNormalize => exact rcNormalize_errs s
  | rcDecode => exact rcDecode_errs s
  | hufGetcode => exact hufGetcode_errs s
  | golGamma => exact golGamma_errs s
  | golRunlen => exact golRunlen_errs s
  | golValue => exact golValue_errs s
  | golDecode => exact golDecode_errs s
  | lzDecompress variant => exact lzDecompress_errs variant s
  | xfRestore degree => exact xfRestore_errs degree s
  | nop | brInit | hufInit | golResetctx | camSetkey | nekoSetkey64 | nekoSethash | xfClrcarry =>
    refine .of_answer rfl ?_
    rfl
  | _ =>
    refine .of_checked_answer rfl ?_ trivial
    rfl

/-! ## The statements -/

/-- Everything an error can leave (R511): a pre-check error the state it started in, an execution error what R511.2 allows. -/
theorem exec_error {i : Instr} {s t : State} (hs : s.err = false) (h : exec i s = .next t) (ht : t.err = true) :
    ∃ u r, t = u.abort i.cmdId r ∧ s.Confined u ∧ (r.err.isExecution = true → u.InvalidFor i)
      ∧ (r.err.isExecution = false → u = s) := by
  obtain ⟨checks, body, after, he, hends⟩ := exec_errsByClass i s
  rcases runCommand_cases (he.symm.trans h) with ⟨r, hc, rfl⟩ | ⟨u, hc, hb, rfl⟩ | ⟨r, hc, hb, rfl⟩
  · exact ⟨s, r, rfl, .refl, hends.of_error hc, fun _ => rfl⟩
  · have hkept : u.err = s.err := (hends.of_ok hc).of_ok hb
    exact absurd ((hkept.trans hs).symm.trans ht) Bool.false_ne_true
  · obtain ⟨hexec, hconfined, hinvalid⟩ := (hends.of_ok hc).of_error hb
    exact ⟨after, r, rfl, hconfined, fun _ => hinvalid, fun hpre => absurd (hpre.symm.trans hexec) Bool.false_ne_true⟩

/-- Settles O15: the code tells that the error is a pre-check error, and then the state is the one before the command. -/
theorem preCheckErrorLeavesState : Obligations.PreCheckErrorLeavesState := by
  intro i s t hs h ht hcode
  obtain ⟨u, r, rfl, -, -, hpre⟩ := exec_error hs h ht
  rw [State.abort_errcode, errWord_code] at hcode
  obtain rfl := hpre (Err.isExecution_of_preCheck hcode)
  rfl

/-- Settles O18: what the error leaves is confined, and an execution error, told by its code, makes its units invalid. -/
theorem errorIsConfined : Obligations.ErrorIsConfined := by
  intro i s t hs h ht
  obtain ⟨u, r, rfl, hu, hinvalid, -⟩ := exec_error hs h ht
  refine ⟨hu.src, hu.dst, hu.buf, hu.lsb, hu.cam, hu.neko, hu.rc, hu.qs, hu.huf, hu.lz, fun hcode => ?_⟩
  rw [State.abort_errcode, errWord_code] at hcode
  exact (hinvalid (r.err.isExecution_iff.mpr hcode)).units

end Sys2Proof.Machine
end
